-- ==== Sys2Proof/Word.lean ====
section
/-! DEFINITION. The plain words of the model: bytes and 16-bit words where the manual treats a thing as bits (frames, CRC), and fixed banks of like things (channels, zones, outputs, slots). -/

namespace Sys2Proof

/-- A byte on the system link or the panel link, or in a fixed byte layout (R187 to R189). -/
abbrev Byte := BitVec 8

/-- A 16-bit word: the CRC of R177. -/
abbrev Half := BitVec 16

/-- A fixed number of like things, reached by number. -/
abbrev Bank (α : Type) (n : Nat) := Vector α n

namespace Bank

variable {α : Type} {n : Nat}

/-- The thing numbered `i`. -/
def nth (b : Bank α n) (i : Fin n) : α := b[i]

/-- The bank with the thing numbered `i` replaced. -/
def put (b : Bank α n) (i : Fin n) (x : α) : Bank α n := b.set i x

/-- The bank with every thing replaced by a function of itself. -/
def each (b : Bank α n) (f : α → α) : Bank α n := b.map f

end Bank

end Sys2Proof
end

