-- ==== Sys2Proof/Syntax.lean ====
section
/-! DEFINITION. The commands of the block: the operand types, as the host, the plant and the panel may give them (out of range included), and the one inductive `Instr` with a constructor for every row of spec/opcode_table.json. -/

namespace Sys2Proof

/-! ## Names of the plant -/

/-- The six zones of R1. -/
inductive Zone
  | battery | drive | cabin | ambient | resistor | inlet
  deriving DecidableEq, Repr

/-- The four heat meters (chapter 1, Heat meters). -/
inductive Meter
  | mBatt | mDrive | mCabin | mAux
  deriving DecidableEq, Repr

/-- The eight mover roles of R86. -/
inductive Role
  | pumpBatt | pumpDrive | pumpCabin | pumpAux | compressor | chiller | heater | fan
  deriving DecidableEq, Repr

/-- A zone's number (R1). -/
def Zone.idx : Zone → Fin 6
  | .battery => 0 | .drive => 1 | .cabin => 2 | .ambient => 3 | .resistor => 4 | .inlet => 5

/-- A meter's place in the meter bank (also its detail byte, R189). -/
def Meter.idx : Meter → Fin 4
  | .mBatt => 0 | .mDrive => 1 | .mCabin => 2 | .mAux => 3

/-- A role's place in the role map and in a channel's demands. -/
def Role.idx : Role → Fin 8
  | .pumpBatt => 0 | .pumpDrive => 1 | .pumpCabin => 2 | .pumpAux => 3
  | .compressor => 4 | .chiller => 5 | .heater => 6 | .fan => 7

/-- The zones in number order. -/
def Zone.all : List Zone := [.battery, .drive, .cabin, .ambient, .resistor, .inlet]

/-- The meters in order. -/
def Meter.all : List Meter := [.mBatt, .mDrive, .mCabin, .mAux]

/-- The roles in the order of R86's glossary entry. -/
def Role.all : List Role :=
  [.pumpBatt, .pumpDrive, .pumpCabin, .pumpAux, .compressor, .chiller, .heater, .fan]

/-- A transfer channel, 0 to 5 (R48). -/
abbrev ChannelNo := Fin 6
/-- An output: `k` stands for O(k+1) (R115). -/
abbrev OutputNo := Fin 9
/-- A valve: `k` stands for V(k+1) (R119). -/
abbrev ValveNo := Fin 6
/-- A path entry, P0 to P23 (R23). -/
abbrev PathNo := Fin 24
/-- A slot of the segment store (R27). -/
abbrev SlotNo := Fin 96
/-- A sensor input, I0 to I31 (R2). -/
abbrev InputNo := Fin 32

/-! ## Tables the host writes and the image holds -/

/-- Which sign of the meter rate counts as delivery (R23). -/
inductive Sense | positive | negative
  deriving DecidableEq, Repr

/-- The regime of a path (R23). -/
inductive Regime | passive | pumped
  deriving DecidableEq, Repr

/-- The compressor circuit a path needs (R23). -/
inductive PathMode | none | cool | heat
  deriving DecidableEq, Repr

/-- A DEFINED path entry with the fields of R23. Capacity and gain in tenths. -/
structure PathEntry where
  source : Zone
  sink : Zone
  meter : Meter
  sense : Sense
  /-- tenths of a kilowatt, 10 to 1500 -/
  capacity : Nat
  regime : Regime
  mode : PathMode
  /-- role and share in percent -/
  roles : List (Role × Nat)
  /-- valve and position in percent -/
  valves : List (ValveNo × Nat)
  /-- tenths of a percent per kilowatt per second, 1 to 100 -/
  gain : Nat
  /-- percent, 0 to 30; 0 selects the regime default -/
  leadOffset : Nat
  /-- seconds, 0 to 30 -/
  runDown : Nat
  deriving DecidableEq, Repr

/-- The flags of a TRANSFER (R28). -/
structure SegFlags where
  continue_ : Bool
  next : Bool
  shortOk : Bool
  progress : Bool
  measure : Bool
  deriving DecidableEq, Repr

/-- The fields of a TRANSFER segment (R28). -/
structure Transfer where
  path : PathNo
  /-- kilojoules, 1 to 65,000 -/
  quantity : Nat
  /-- tenths of a kilowatt, 1 to 1500 -/
  rate : Nat
  /-- seconds, 0 for none, up to 7200 -/
  timeLimit : Nat
  label : Fin 256
  flags : SegFlags
  deriving DecidableEq, Repr

/-- The contents of one slot (R27). -/
inductive Segment
  | empty
  | jump (target : SlotNo)
  | transfer (t : Transfer)
  deriving DecidableEq, Repr

/-- The limit group of a zone entry (R132). Temperatures in tenths of a degree, hysteresis in tenths of a kelvin. A limit absent for the zone is `none`. -/
structure Limits where
  softLow : Option Int
  softHigh : Option Int
  hardLow : Option Int
  hardHigh : Option Int
  hysteresis : Int
  deriving DecidableEq, Repr

/-- A subset of the classes 1, 2, 3 (R36). -/
structure ClassSet where
  one : Bool
  two : Bool
  three : Bool
  deriving DecidableEq, Repr

/-- The reserve group when present: a channel and a slot of the reserve area (R132). -/
structure Reserve where
  channel : ChannelNo
  slot : SlotNo
  deriving DecidableEq, Repr

/-- One entry of the zone table (R132). -/
structure ZoneEntry where
  limits : Limits
  sourceClasses : ClassSet
  sinkClasses : ClassSet
  reserve : Option Reserve
  deriving DecidableEq, Repr

/-- One entry of the sensor map: the role with what it names (R2). -/
inductive MapEntry
  | unused
  | zoneTemp (z : Zone)
  | meterFlow (m : Meter)
  | meterSupply (m : Meter)
  | meterReturn (m : Meter)
  deriving DecidableEq, Repr

/-- The mode of the part (R38). -/
inductive Mode | operating | commissioning
  deriving DecidableEq, Repr

/-- The three locks (R40). -/
structure Locks where
  limit : Bool
  path : Bool
  reserve : Bool
  deriving DecidableEq, Repr

/-- The tuning set (R194); kilowatts and the coolant constant in tenths. The host's SET TUNING carries the same fields, in or out of range. -/
structure Tuning where
  prefetchMargin : Nat
  meterHold : Nat
  valveTimeout : Nat
  equalizeTime : Nat
  parkDelay : Nat
  leadThreshold : Nat
  leadTime : Nat
  coolant : Nat
  handOverTime : Nat
  keep : Bool
  deriving DecidableEq, Repr

/-- The five regulator settings (R153); deadband in tenths of a kelvin, gain in tenths of a kilowatt per kelvin, wait limit in seconds. -/
structure ComfortSettings where
  heatPath : Option PathNo
  coolPath : Option PathNo
  deadband : Nat
  gain : Nat
  waitLimit : Nat
  deriving DecidableEq, Repr

/-- The image of R191: everything SAVE CONFIGURATION writes and start-up installs. `slots` are slots 80 to 95. -/
structure Image where
  paths : Bank (Option PathEntry) 24
  zones : Bank ZoneEntry 6
  map : Bank MapEntry 32
  slots : Bank Segment 16
  locks : Locks
  window : Option (PathNo × PathNo)
  roleMap : Bank OutputNo 8
  comfort : ComfortSettings
  target : Int
  tuning : Tuning
  autoRelease : Bool
  deriving DecidableEq, Repr

/-- The three straps, latched at the release of reset (R190). -/
structure Straps where
  load : Bool
  baud : Bool
  spare : Bool
  deriving DecidableEq, Repr

/-! ## Operands of the requests, as the host may send them -/

/-- The frame a request comes in: its sequence number and the bytes of its body (R187), and whether the body's length fits the request (R181), which no layout settles but for WRITE SEGMENTS and the requests without arguments (log 26). -/
structure Frame where
  seq : Byte
  body : List Byte
  lengthFits : Bool
  deriving DecidableEq, Repr

/-- A frame that is no request of the catalogue, or whose request is not looked at: its sequence number and the bytes of its body (R187). -/
structure PlainFrame where
  seq : Byte
  body : List Byte
  deriving DecidableEq, Repr

/-- A byte as the system link receives it: its value, and whether its character framing was damaged (R178). -/
structure RxByte where
  value : Byte
  damaged : Bool
  deriving DecidableEq, Repr

/-- Bytes received, a pause of more than 5 milliseconds, and bytes received after it (R178). -/
structure PausedBytes where
  before : List RxByte
  after : List RxByte
  deriving DecidableEq, Repr

/-- The fields of a DEFINED path write before they are judged (R24). Roles, zones, meters by number. -/
structure RawPath where
  source : Nat
  sink : Nat
  meter : Nat
  /-- 0 POSITIVE, 1 NEGATIVE -/
  sense : Nat
  capacity : Nat
  /-- 0 PASSIVE, 1 PUMPED -/
  regime : Nat
  /-- 0 NONE, 1 COOL, 2 HEAT -/
  mode : Nat
  roles : List (Nat × Nat)
  /-- valves by number, 1 to 6 -/
  valves : List (Nat × Nat)
  gain : Nat
  leadOffset : Nat
  runDown : Nat
  deriving DecidableEq, Repr

/-- What WRITE PATH gives: a kind, and for DEFINED every field (R25). -/
inductive PathWrite
  | empty
  | defined (p : RawPath)
  | badKind
  deriving DecidableEq, Repr

/-- The limit group as WRITE ZONE carries it: a limit it does not name is `none` (R133). -/
structure RawLimits where
  softLow : Option Int
  softHigh : Option Int
  hardLow : Option Int
  hardHigh : Option Int
  hysteresis : Int
  deriving DecidableEq, Repr

/-- The groups a WRITE ZONE carries (R41): each is present or not. -/
structure ZoneWrite where
  limits : Option RawLimits
  /-- source classes and sink classes, by number -/
  access : Option (List Nat × List Nat)
  /-- reserve channel and first slot, each a number or none -/
  reserve : Option (Option Nat × Option Nat)
  deriving DecidableEq, Repr

/-- The role and name of a sensor map entry before it is judged (R46). -/
inductive RawRole
  | unused
  | zoneTemp (z : Nat)
  | meterFlow (m : Nat)
  | meterSupply (m : Nat)
  | meterReturn (m : Nat)
  | unknown
  deriving DecidableEq, Repr

/-- One entry of a WRITE SENSOR MAP (R46). -/
structure RawMapEntry where
  input : Nat
  role : RawRole
  deriving DecidableEq, Repr

/-- The area a CHECKSUM names (R47). -/
inductive Area | segments | paths | zones | sensorMap | unknown
  deriving DecidableEq, Repr

/-- The item a TEST OUTPUT names: output or valve by its number from 1 (R127). -/
inductive TestItem
  | output (number : Nat)
  | valve (number : Nat)
  | other
  deriving DecidableEq, Repr

/-- The five settings as COMFORT ON carries them (R155). A path given as `none` is the setting none. -/
structure RawComfort where
  heatPath : Option Nat
  coolPath : Option Nat
  deadband : Nat
  gain : Nat
  waitLimit : Nat
  deriving DecidableEq, Repr

/-! ## Operands of the events -/

/-- What the read of the image at start-up finds (R191). `stored` reads what the parameter memory holds in the state. `supplied` reads contents with a matching CRC that another agent put there while the part was off. -/
inductive ImageRead
  | noAnswer
  | crcMismatch
  | stored
  | supplied (image : Image)
  deriving DecidableEq, Repr

/-- What one read on the sensor bus brings (R5): a reply with a number in it, no answer, or a corrupted reply. Temperatures in tenths of a degree, flow in tenths of a litre per minute. -/
inductive SensorReply
  | noAnswer
  | corrupted
  | number (v : Int)
  deriving DecidableEq, Repr

/-- Feedback of one output at a scan end (R115): load current in tenths of a percent of rated, speed in tenths of a percent of full speed. -/
structure OutputFeedback where
  current : Nat
  speed : Nat
  deriving DecidableEq, Repr

/-- The feedback the output stage reads at a scan end: every output, and every valve's position in percent or no reading (R115, R119, R120). -/
structure Feedback where
  outputs : Bank OutputFeedback 9
  valves : Bank (Option Int) 6
  deriving DecidableEq, Repr

/-- Whether what falls due at a scan end is taken within the SCAN_END step or comes as rows of its own after it (log 3). -/
inductive DueMode | within | separate
  deriving DecidableEq, Repr

/-- The order of the blocks at one scan end, where the spec lets either be taken first (log 3). -/
structure ScanOrder where
  /-- channels whose own work is taken before the zone supervisor's judgement, in this order (R140, R144) -/
  channelsFirst : List ChannelNo
  /-- the comfort regulator's judgement is taken before the own work of the channels that follow the zones (R157, R159, R160) -/
  regulatorFirst : Bool
  /-- the output stage judges faults before zones and channels are taken (R168) -/
  faultsFirst : Bool
  due : DueMode
  deriving DecidableEq, Repr

/-! ## The commands -/

/-- The commands of the block: one constructor per row of spec/opcode_table.json. -/
inductive Instr
  /-- IDENTIFY, R184 -/
  | identify (f : Frame)
  /-- READ_STATUS, R185 -/
  | readStatus (f : Frame)
  /-- START_ORDER, R50; the wait limit in seconds -/
  | startOrder (f : Frame) (channel firstSlot cls tag waitLimit : Nat)
  /-- HALT_ORDER, R79 -/
  | haltOrder (f : Frame) (channel : Nat)
  /-- QUERY_CHANNEL, R80 -/
  | queryChannel (f : Frame) (channel : Nat)
  /-- FETCH_REPORT, R172 -/
  | fetchReport (f : Frame)
  /-- WRITE_SEGMENTS, R30; the body of R188, which is the frame's: first slot, count, segment bodies -/
  | writeSegments (f : Frame) (body : List Byte)
  /-- READ_SEGMENTS, R31 -/
  | readSegments (f : Frame) (first count : Nat)
  /-- WRITE_PATH, R25 -/
  | writePath (f : Frame) (entry : Nat) (write : PathWrite)
  /-- READ_PATH, R26 -/
  | readPath (f : Frame) (entry : Nat)
  /-- WRITE_ZONE, R41 -/
  | writeZone (f : Frame) (zone : Nat) (write : ZoneWrite)
  /-- READ_ZONE, R135 -/
  | readZone (f : Frame) (zone : Nat)
  /-- WRITE_SENSOR_MAP, R46 -/
  | writeSensorMap (f : Frame) (entries : List RawMapEntry)
  /-- CHECKSUM, R47 -/
  | checksum (f : Frame) (area : Area) (first last : Nat)
  /-- READ_MOVERS, R130 -/
  | readMovers (f : Frame)
  /-- EXCHANGE_ROLE, R124; `none` is a number that names no role -/
  | exchangeRole (f : Frame) (role : Option Role) (force : Bool)
  /-- TEST_OUTPUT, R127 -/
  | testOutput (f : Frame) (item : TestItem)
  /-- SET_CABIN_TARGET, R152; hundredths of a degree, so that a value that is no whole number of tenths can be sent -/
  | setCabinTarget (f : Frame) (hundredths : Int)
  /-- COMFORT_ON, R155 -/
  | comfortOn (f : Frame) (settings : Option RawComfort)
  /-- COMFORT_OFF, R156 -/
  | comfortOff (f : Frame)
  /-- PANEL_LOCK, R165; `none` is neither on nor off -/
  | panelLock (f : Frame) (on : Option Bool)
  /-- SET_TUNING, R194 -/
  | setTuning (f : Frame) (tuning : Tuning) (autoRelease : Bool)
  /-- SET_MODE, R195; `none` is a value that names no mode -/
  | setMode (f : Frame) (mode : Option Mode)
  /-- SET_LOCK, R40: the locks to set -/
  | setLock (f : Frame) (locks : Locks)
  /-- RELEASE_PATH_LOCK, R42 -/
  | releasePathLock (f : Frame)
  /-- SET_PATH_WINDOW, R44; `none` is the word EMPTY -/
  | setPathWindow (f : Frame) (window : Option (Nat × Nat))
  /-- SAVE_CONFIGURATION, R193 -/
  | saveConfiguration (f : Frame)
  /-- RELEASE_LOCKOUT, R192 -/
  | releaseLockout (f : Frame)
  /-- PARK, R196 -/
  | park (f : Frame)
  /-- RESET, R198 -/
  | reset (f : Frame)
  /-- UNKNOWN_REQUEST, R181: a frame with a matching CRC of a kind outside the catalogue -/
  | unknownRequest (kind : Byte) (f : PlainFrame)
  /-- BUSY, R180: a frame with a matching CRC that completes while the slot is TAKEN -/
  | busy (kind : Byte) (f : PlainFrame)
  /-- FRAME_ERROR, R178: the bytes up to the one that ends a frame that fails, and those that follow with no pause -/
  | frameError (bytes after : List RxByte)
  /-- FRAME_TIMEOUT, R178 -/
  | frameTimeout (bytes : PausedBytes)
  /-- REPLY_SENT, R180 -/
  | replySent
  /-- POWER_ON_RESET, R190, with the strap inputs at the release of reset -/
  | powerOnReset (straps : Straps)
  /-- RESET_PIN_RELEASE, R190 -/
  | resetPinRelease (straps : Straps)
  /-- IMAGE_LOAD_COMPLETE, R191 -/
  | imageLoadComplete (read : ImageRead)
  /-- SCAN_START, R5 -/
  | scanStart
  /-- PARKED_SCAN_START, R6 -/
  | parkedScanStart
  /-- WAKING_SCAN_START, R197 -/
  | wakingScanStart
  /-- SENSOR_READ, R9 -/
  | sensorRead (input : InputNo) (reply : SensorReply)
  /-- INPUT_LOST, R10: the miss that takes the input's count to 3 -/
  | inputLost (input : InputNo)
  /-- SCAN_END, R5, with the feedback read at it and the order in which the blocks are taken -/
  | scanEnd (feedback : Feedback) (order : ScanOrder)
  /-- METER_HOLD_EXPIRY, R18 -/
  | meterHoldExpiry (meter : Meter)
  /-- RESERVE_PENDING_START, R143 -/
  | reservePendingStart (channel : ChannelNo)
  /-- SEGMENT_TIME_LIMIT, R71 -/
  | segmentTimeLimit (channel : ChannelNo)
  /-- LEAD_END, R58 -/
  | leadEnd (channel : ChannelNo)
  /-- WAIT_LIMIT_REACHED, R72 -/
  | waitLimitReached (channel : ChannelNo)
  /-- RUN_DOWN_END, R78 -/
  | runDownEnd (channel : ChannelNo)
  /-- EQUALIZE_END, R105 -/
  | equalizeEnd
  /-- OPEN_LOAD, R121 -/
  | openLoad (output : OutputNo)
  /-- STALL, R121 -/
  | stall (output : OutputNo)
  /-- OUTPUT_TEST_END, R127 -/
  | outputTestEnd (output : OutputNo)
  /-- HAND_OVER_END, R125 -/
  | handOverEnd
  /-- VALVE_AT_POSITION, R119 -/
  | valveAtPosition (valve : ValveNo)
  /-- VALVE_TRAVEL_TIMEOUT, R120 -/
  | valveTravelTimeout (valve : ValveNo)
  /-- VALVE_FEEDBACK_LOST, R120 -/
  | valveFeedbackLost (valve : ValveNo)
  /-- VALVE_DRIFT, R119 -/
  | valveDrift (valve : ValveNo)
  /-- VALVE_TEST_FIRST_LEG, R128 -/
  | valveTestFirstLeg (valve : ValveNo)
  /-- VALVE_TEST_PASS, R128 -/
  | valveTestPass (valve : ValveNo)
  /-- PARK_TIMER_EXPIRY, R196 -/
  | parkTimerExpiry
  /-- OUTPUT_ENABLE_END, R197 -/
  | outputEnableEnd
  /-- SAVE_PIECE, R8 -/
  | savePiece
  /-- SAVE_COMPLETE, R193 -/
  | saveComplete
  /-- SAVE_FAILED, R193 -/
  | saveFailed
  /-- PANEL_TARGET_LINE, R164: the characters after "T=" up to the carriage return -/
  | panelTargetLine (rest : List Byte)
  /-- PANEL_QUERY_LINE, R164 -/
  | panelQueryLine
  /-- PANEL_BAD_LINE, R163: the characters of the line up to the carriage return -/
  | panelBadLine (line : List Byte)
  /-- PANEL_LINE_TIMEOUT, R163: the characters before the pause, and those after it -/
  | panelLineTimeout (before after : List Byte)
  /-- RESET_PIN_ASSERT, R190 -/
  | resetPinAssert
  /-- POWER_LOSS, R193 -/
  | powerLoss
  /-- PANEL_REPLY_SENT, R163 -/
  | panelReplySent
  deriving DecidableEq, Repr

end Sys2Proof
end

