-- ==== Sys2Proof/Machine/State.lean ====
section
/-! DEFINITION. The state of the UH-260: everything the spec gives the part, block by block, as plain data, and the state after reset. -/

namespace Sys2Proof.Machine

open Sys2Proof

/-! ## Reasons to stop -/

/-- Why a command would stop the machine. The part has no such reason: every fault the spec describes (of an output, a valve, a frame, a chain) is an effect on the state and the next command is taken. So nothing raises a Fault, which is safe. -/
inductive Fault
  deriving DecidableEq, Repr

/-- Why a command has no meaning here. `notModelled` would be raised by an arm of `exec` whose row has no meaning yet (safe: the model stops); no arm uses it. -/
inductive Refusal
  | notModelled (mnemonic : String)
  deriving DecidableEq, Repr

/-! ## The part as a whole (chapter 10) -/

/-- Whether the part runs at all (R190, R193). -/
inductive RunState | running | heldInReset | noSupply
  deriving DecidableEq, Repr

/-- The part state (R190). -/
inductive PartState | starting | ready | parked | waking
  deriving DecidableEq, Repr

/-- Where a WAKING part stands (R197): the waking scan is due, it runs, or output enable follows it. -/
inductive WakePhase | scanDue | wakingScan | outputEnable
  deriving DecidableEq, Repr

/-- The image status (R191). -/
inductive ImageStatus | valid | bad | notLoaded
  deriving DecidableEq, Repr

/-- The save state (R193). -/
inductive SaveState | none | writing | done | failed
  deriving DecidableEq, Repr

/-- What configuration control owns beside the part state, the straps and the tuning set (chapter 10, R38 to R44). -/
structure Control where
  mode : Mode
  locks : Locks
  window : Option (PathNo × PathNo)
  lockout : Bool
  imageStatus : ImageStatus
  save : SaveState
  /-- the snapshot being written, while WRITING -/
  snapshot : Option Image
  imageTuning : Tuning
  autoRelease : Bool
  /-- in scans -/
  parkTimer : Nat
  deriving DecidableEq, Repr

/-- The tables the other blocks read while they act: path table, segment store, zone table, tuning set, latched straps. -/
structure Tables where
  paths : Bank (Option PathEntry) 24
  slots : Bank Segment 96
  zones : Bank ZoneEntry 6
  tuning : Tuning
  straps : Straps
  deriving DecidableEq, Repr

/-! ## Sensor bus engine and heat meters (chapter 1) -/

/-- The status of a mapped input (R9). -/
inductive InputStatus | valid | lost
  deriving DecidableEq, Repr

/-- A mapped input (R9): value in tenths, absent when LOST; miss count 0 to 3. -/
structure InputRec where
  status : InputStatus
  value : Option Int
  misses : Nat
  deriving DecidableEq, Repr

/-- The kind of a scan: a full scan (R5), a parked scan (R6), the waking scan (R6, R197). -/
inductive ScanKind | full | parked | waking
  deriving DecidableEq, Repr

/-- A scan in progress: its kind and the inputs still to be read, in input-number order (R5). -/
structure Scan where
  kind : ScanKind
  toRead : List InputNo
  deriving DecidableEq, Repr

/-- A zone reading (R12), in tenths of a degree. -/
structure Reading where
  count : Nat
  hottest : Option Int
  coldest : Option Int
  mean : Option Int
  deriving DecidableEq, Repr

/-- The sensor bus engine (R2 to R12). -/
structure SensorBus where
  map : Bank MapEntry 32
  /-- the map under which the last scan began (R4) -/
  applied : Bank MapEntry 32
  inputs : Bank (Option InputRec) 32
  scan : Option Scan
  readings : Bank Reading 6
  /-- tenths of a second, up to 100, since the entry to PARKED or the start of the last parked scan; counts in PARKED alone (R6) -/
  parkedTime : Nat
  deriving DecidableEq, Repr

/-- The state of a meter (R14). -/
inductive MeterState | valid | holding | handOver | invalid
  deriving DecidableEq, Repr

/-- A heat meter (R14): rates in tenths of a kilowatt, residue in hundredths of a kilojoule. -/
structure MeterRec where
  state : MeterState
  rate : Option Int
  held : Option Int
  holdCount : Nat
  /-- the state held before a hand-over, during one -/
  before : Option MeterState
  residue : Int
  /-- the output stage has ended the hand-over and the meter waits for the next scan end (R20) -/
  handOverEnded : Bool
  /-- the hold has run out at the last judgement and the expiry is due (R18) -/
  expiryDue : Bool
  deriving DecidableEq, Repr

/-! ## Transfer channels (chapter 3) -/

/-- The causes of R81, in the order of R189. -/
inductive Cause
  | complete | halted | preempted | starved | time | sourceDepleted | sinkFull
  | programError | protection | zoneTrip | zoneBlind | valveFault | meterLost
  deriving DecidableEq, Repr

/-- The nine detail codes of R35. -/
inductive ProgramDetail
  | emptySlot | pastEnd | areaCrossed | jumpToJump | jumpOutOfRange
  | flagConflict | undefinedPath | rateRange | continuePathChange
  deriving DecidableEq, Repr

/-- The detail of a cause (R82). -/
inductive Detail
  | absent
  | program (d : ProgramDetail)
  | zone (z : Zone)
  | valve (v : ValveNo)
  | meter (m : Meter)
  deriving DecidableEq, Repr

/-- A cause with its detail, and for PROGRAM-ERROR the failing slot (R48, R81). -/
structure Ending where
  cause : Cause
  detail : Detail
  failing : Option SlotNo
  deriving DecidableEq, Repr

/-- A validated TRANSFER copy (R37). An internal copy of the regulator has no slot and no quantity bound (R158). -/
structure Copy where
  path : PathNo
  /-- kilojoules; `none` is unbounded -/
  quantity : Option Nat
  /-- tenths of a kilowatt -/
  rate : Nat
  timeLimit : Nat
  label : Fin 256
  flags : SegFlags
  slot : Option SlotNo
  deriving DecidableEq, Repr

/-- Whose order runs on the channel: a host order, the regulator's (R158), or the reserve order of a zone (R54). -/
inductive Owner | host | regulator | reserve (z : Zone)
  deriving DecidableEq, Repr

/-- The notes set (R83); OVERRUN in tenths of a kilojoule. -/
structure Notes where
  shortSeen : Bool
  estimated : Bool
  overrun : Nat
  deriving DecidableEq, Repr

/-- The ending purpose (R48). -/
inductive Purpose | transition | endWith (e : Ending)
  deriving DecidableEq, Repr

/-- What a channel in ENDING holds (R48, R78): purpose, run-down timer and length in scans, the demands at entry, the counting-stopped flag. -/
structure RunDown where
  purpose : Purpose
  timer : Nat
  length : Nat
  entry : Bank Nat 8
  countingStopped : Bool
  deriving DecidableEq, Repr

/-- The states of a channel that is not IDLE (R48). -/
inductive Phase | waiting | setting | running | ending (r : RunDown)
  deriving DecidableEq, Repr

/-- The context of a channel that is not IDLE (R48). Heats in tenths of a kilojoule, demands in tenths of a percent, corrections in hundredths, times in scans, the wait limit in seconds. -/
structure Order where
  phase : Phase
  owner : Owner
  tag : Nat
  cls : Fin 4
  firstSlot : Option SlotNo
  copy : Copy
  previous : Option SlotNo
  /-- the prefetched copy, or the successor of a transition -/
  next : Option Copy
  /-- the prefetch of the current segment has been made (R65) -/
  prefetchMade : Bool
  failure : Option Ending
  remaining : Option Nat
  carry : Nat
  delivered : Nat
  segTime : Nat
  runFlag : Bool
  orderTime : Nat
  waitTimer : Nat
  waitLimit : Nat
  demands : Bank Nat 8
  corrections : Bank Int 8
  lead : Option Nat
  meterHeld : Bool
  notes : Notes
  deriving DecidableEq, Repr

/-- A channel: IDLE when it has no order (R48). -/
structure Channel where
  order : Option Order
  recordQueued : Bool
  deriving DecidableEq, Repr

/-! ## Mover arbiter (chapter 4) -/

/-- The two compressor circuits; the mode UNSET of R87 is `none`. -/
inductive Circuit | cool | heat
  deriving DecidableEq, Repr

/-- Why the last grant scan left a set waiting (R100). -/
inductive WaitReason
  | blocked (by_ : ChannelNo)
  | outputUnavailable (r : Role)
  | compressorEqualizing
  | compressorMode
  | shareFull (r : Role)
  | chillerHeld
  | valveFaulted (v : ValveNo)
  | valvePosition (v : ValveNo)
  deriving DecidableEq, Repr

/-- A claim set (R88). A granted set is the same record in the holder table. -/
structure ClaimSet where
  channel : ChannelNo
  cls : Fin 4
  path : PathNo
  roles : List (Role × Nat)
  valves : List (ValveNo × Nat)
  mode : Option Circuit
  reason : Option WaitReason
  deriving DecidableEq, Repr

/-- The condition of the compressor with what an equalize holds; the timer in tenths of a second (R87). -/
inductive Condition | steady | equalizing (target : Circuit) (timer : Nat)
  deriving DecidableEq, Repr

/-- The compressor record (R87). -/
structure Compressor where
  mode : Option Circuit
  condition : Condition
  deriving DecidableEq, Repr

/-- The mover arbiter: claim list in order (R90); the granted sets, oldest grant first, which are both the holder table and the grant order (R92). -/
structure Arbiter where
  claims : List ClaimSet
  grants : List ClaimSet
  comp : Compressor
  deriving DecidableEq, Repr

/-! ## Output stage (chapter 5) -/

/-- The kind of an output, fixed by its wiring (R115). -/
inductive OutputKind | pump | compressor | chiller | heater | fan
  deriving DecidableEq, Repr

inductive OutputState | inService | faulted | testing
  deriving DecidableEq, Repr

/-- The fault kinds of R121. -/
inductive OutputFault | openLoad | overcurrent | stall
  deriving DecidableEq, Repr

/-- An output (R115): target, level, current and speed in tenths of a percent. -/
structure OutputRec where
  state : OutputState
  fault : Option OutputFault
  target : Nat
  level : Nat
  current : Nat
  speed : Nat
  openCount : Nat
  stallCount : Nat
  /-- scans left of a test, while TESTING -/
  testTimer : Option Nat
  deriving DecidableEq, Repr

/-- A hand-over in progress (R125): the role, the INCOMING output, the OUTGOING one with its level at the start (absent once it has faulted, R126), scans left and in all. -/
structure HandOver where
  role : Role
  incoming : OutputNo
  outgoing : Option (OutputNo × Nat)
  timer : Nat
  length : Nat
  deriving DecidableEq, Repr

inductive ValveState | atPosition | travelling | faulted
  deriving DecidableEq, Repr

inductive ValveFault | travelTimeout | feedbackLost
  deriving DecidableEq, Repr

/-- The leg of a valve test (R128). -/
inductive TestLeg | toZero | back
  deriving DecidableEq, Repr

/-- A valve test: its leg and the position the valve returns to (R128). -/
structure ValveTest where
  leg : TestLeg
  returnTo : Nat
  deriving DecidableEq, Repr

/-- A valve (R119): positions in percent, the travel timer in scans. The test flag is set while `test` is present. -/
structure ValveRec where
  state : ValveState
  commanded : Option Nat
  feedback : Option Nat
  travelTimer : Nat
  missCount : Nat
  driftCount : Nat
  fault : Option ValveFault
  test : Option ValveTest
  deriving DecidableEq, Repr

/-- The output stage (R115 to R131). -/
structure OutputStage where
  outputs : Bank OutputRec 9
  valves : Bank ValveRec 6
  roleMap : Bank OutputNo 8
  handOver : Option HandOver
  /-- the compressor's circuit as last set; an UNSET mode leaves it as it stands (R117) -/
  circuit : Circuit
  deriving DecidableEq, Repr

/-! ## Zone supervisor (chapter 6) -/

inductive ZoneState | normal | highTrip | lowTrip | blind
  deriving DecidableEq, Repr

/-- The reserve outcome of a trip record (R147); delivered heat in tenths of a kilojoule. -/
inductive ReserveOutcome
  | none | pending | started | notStarted
  | ended (c : Cause) (delivered : Nat)
  deriving DecidableEq, Repr

/-- The trip record (R147). -/
structure TripRecord where
  trigger : Option ZoneState
  hottest : Option Int
  coldest : Option Int
  outcome : ReserveOutcome
  deriving DecidableEq, Repr

/-- What the zone supervisor keeps for a zone beside its table entry (R136, R138). -/
structure ZoneRec where
  state : ZoneState
  depleted : Bool
  full : Bool
  pending : Bool
  trip : TripRecord
  deriving DecidableEq, Repr

/-! ## Comfort regulator and panel link port (chapter 7) -/

inductive Direction | resting | heating | cooling
  deriving DecidableEq, Repr

/-- The regulator state with its direction (R154). -/
inductive RegState
  | disabled
  | active (d : Direction)
  | held
  | suspended
  deriving DecidableEq, Repr

/-- The comfort regulator (R151, R153, R154); the target in tenths of a degree. -/
structure Regulator where
  target : Int
  settings : ComfortSettings
  state : RegState
  deriving DecidableEq, Repr

/-- The panel link port (R163, R165). -/
structure PanelPort where
  buffer : List Byte
  overlong : Bool
  lock : Bool
  sending : Option (List Byte)
  waiting : Option (List Byte)
  deriving DecidableEq, Repr

/-! ## Reports (chapter 8) -/

/-- A completion record (R81). -/
structure Record where
  channel : ChannelNo
  tag : Nat
  cls : Fin 4
  ending : Ending
  lastSlot : Option SlotNo
  remaining : Option Nat
  delivered : Nat
  /-- whole seconds -/
  runTime : Nat
  notes : Notes
  deriving DecidableEq, Repr

/-- A progress note (R170) without its missed count. -/
structure Note where
  channel : ChannelNo
  tag : Nat
  slot : Option SlotNo
  label : Fin 256
  delivered : Nat
  deriving DecidableEq, Repr

/-- A zone report (R147, R171) without its change count. -/
structure ZoneReport where
  zone : Zone
  trigger : Option ZoneState
  stateNow : ZoneState
  hottest : Option Int
  coldest : Option Int
  outcome : ReserveOutcome
  deriving DecidableEq, Repr

/-- An output report (R123, R171) without its change count. -/
structure OutputReport where
  output : OutputNo
  role : Option Role
  fault : Option OutputFault
  stateNow : OutputState
  deriving DecidableEq, Repr

/-- A report of one of the four kinds of R167. -/
inductive ReportBody
  | completion (r : Record)
  | progress (n : Note)
  | zone (z : ZoneReport)
  | output (o : OutputReport)
  deriving DecidableEq, Repr

/-- A report as it stands in the queue, with the count of R168 (a completion record's stays 0 and is not shown). -/
structure Report where
  body : ReportBody
  count : Nat
  deriving DecidableEq, Repr

/-- The key of a report: its kind and what it is about (R167). -/
inductive ReportKey
  | completion (c : ChannelNo)
  | progress (c : ChannelNo)
  | zone (z : Zone)
  | output (o : OutputNo)
  deriving DecidableEq, Repr

/-! ## Replies (chapter 9) -/

/-- The reply codes of R182. -/
inductive ReplyCode
  | ok | busy | frameError | unknownRequest | badArgument | notPermitted | inUse | locked
  | notReady | outputFaulted | taken | ended | occupied | unavailable | idle | record
  | active | ending | empty
  deriving DecidableEq, Repr

/-- The reason byte of UNAVAILABLE (R182). -/
inductive Reason | lockout | waking | comfort
  deriving DecidableEq, Repr

/-- The reply to IDENTIFY (R184): the device code, the two texts, the revision letter, the seven counts in order, the latched straps. -/
structure Identity where
  device : Half
  family : List Byte
  part : List Byte
  revision : Byte
  counts : List Nat
  straps : Straps
  deriving DecidableEq, Repr

/-- A channel's state as a name (R48). -/
inductive ChannelState | idle | waiting | setting | running | ending
  deriving DecidableEq, Repr

/-- What READ STATUS gives for a channel (R185). -/
structure ChannelStatus where
  state : ChannelState
  cls : Option (Fin 4)
  recordQueued : Bool
  meterHeld : Bool
  deriving DecidableEq, Repr

/-- The reply to READ STATUS (R185). -/
structure Status where
  part : PartState
  lockout : Bool
  mode : Mode
  imageStatus : ImageStatus
  save : SaveState
  queueLength : Nat
  channels : List ChannelStatus
  zones : List ZoneState
  comfort : RegState
  attention : Bool
  deriving DecidableEq, Repr

/-- The snapshot of a channel context (R80); run times in tenths of a second. -/
structure Snapshot where
  state : ChannelState
  purpose : Option Purpose
  tag : Nat
  cls : Fin 4
  firstSlot : Option SlotNo
  copy : Copy
  previous : Option SlotNo
  prefetchedSlot : Option SlotNo
  failure : Option Ending
  remaining : Option Nat
  carry : Nat
  delivered : Nat
  segTime : Nat
  orderTime : Nat
  waitTimer : Nat
  waitLimit : Nat
  demands : List (Role × Nat)
  meterHeld : Bool
  notes : Notes
  deriving DecidableEq, Repr

/-- The reply to READ PATH and WRITE PATH (R26). -/
structure PathInfo where
  entry : Option PathEntry
  effectiveLead : Option Nat
  inUse : Bool
  writable : Bool
  deriving DecidableEq, Repr

/-- An input as a reply shows it: its record, and whether its value is a flow, as the entry under which it was read says (R4, R22). -/
structure InputShown where
  record : Option InputRec
  isFlow : Bool
  deriving DecidableEq, Repr

/-- A zone's table entry as READ ZONE returns it, with its input list (R22, R135). -/
structure ZoneTableInfo where
  zone : Zone
  entry : ZoneEntry
  inputs : List (InputNo × InputShown)
  deriving DecidableEq, Repr

/-- The reply to READ ZONE (R135). -/
structure ZoneInfo where
  table : ZoneTableInfo
  reading : Reading
  state : ZoneState
  depleted : Bool
  full : Bool
  pending : Bool
  trip : TripRecord
  deriving DecidableEq, Repr

/-- A meter in READ MOVERS (R22). -/
structure MeterInfo where
  state : MeterState
  rate : Option Int
  held : Option Int
  holdCount : Option Nat
  flow : InputShown
  supply : InputShown
  return_ : InputShown
  deriving DecidableEq, Repr

inductive HandOverPart | outgoing | incoming
  deriving DecidableEq, Repr

/-- An output in READ MOVERS (R130). `role` absent is SPARE. -/
structure OutputInfo where
  number : OutputNo
  kind : OutputKind
  role : Option Role
  state : OutputState
  fault : Option OutputFault
  target : Nat
  level : Nat
  current : Nat
  speed : Option Nat
  testTimer : Option Nat
  handOver : Option (HandOverPart × Nat)
  deriving DecidableEq, Repr

/-- A valve in READ MOVERS (R130). -/
structure ValveInfo where
  state : ValveState
  fault : Option ValveFault
  test : Bool
  commanded : Option Nat
  feedback : Option Nat
  travelLeft : Option Nat
  deriving DecidableEq, Repr

/-- A holder as READ MOVERS returns it: channel, class, and share or position (R113). -/
structure Holder where
  channel : ChannelNo
  cls : Fin 4
  amount : Nat
  deriving DecidableEq, Repr

/-- The reply to READ MOVERS (R22, R113, R130). -/
structure Movers where
  outputs : List OutputInfo
  valves : List ValveInfo
  roleMap : Bank OutputNo 8
  meters : List MeterInfo
  claims : List ClaimSet
  roleHolders : List (Role × List Holder)
  valveHolders : List (ValveNo × List Holder)
  compressorShares : Nat
  heaterShares : Nat
  grantOrder : List ChannelNo
  compressor : Compressor
  deriving DecidableEq, Repr

/-- What the comfort replies return (R154). -/
structure ComfortInfo where
  state : RegState
  settings : ComfortSettings
  target : Int
  deriving DecidableEq, Repr

/-- What follows the reply code in a reply's body. -/
inductive ReplyBody
  | none
  | identity (i : Identity)
  | status (s : Status)
  | record (r : Record)
  | unavailable (r : Reason)
  | snapshot (s : Snapshot)
  | report (r : Report) (left : Nat)
  | segments (first count : Nat) (segs : List Segment)
  | path (p : PathInfo)
  | zoneTable (z : ZoneTableInfo)
  | zone (z : ZoneInfo)
  | sensorMap (entries : List (MapEntry × InputShown))
  | checksum (crc : Half) (count : Nat) (mode : Mode) (locks : Locks)
  | movers (m : Movers)
  | roleMap (m : Bank OutputNo 8)
  | cabinTarget (target : Int) (state : RegState) (mean : Option Int)
  | comfort (c : ComfortInfo)
  | panelLock (lock : Bool) (c : ComfortInfo)
  | tuning (t : Tuning) (autoRelease : Bool)
  | locks (l : Locks)
  | window (w : Option (PathNo × PathNo)) (l : Locks)
  deriving DecidableEq, Repr

/-- A reply the transmitter holds (R179, R180). `ofSlot` marks the reply of the request that holds the receive slot; `resets` the reply of a RESET, whose effects follow it (R198). -/
structure TxReply where
  kind : Byte
  seq : Byte
  code : ReplyCode
  body : ReplyBody
  ofSlot : Bool
  resets : Bool
  deriving DecidableEq, Repr

/-- The receive state (R178); in RECEIVING, the bytes of the frame after its start byte, and whether one of them was damaged. -/
inductive RxState | hunting | receiving (bytes : List Byte) (damaged : Bool)
  deriving DecidableEq, Repr

inductive SlotState | free | taken
  deriving DecidableEq, Repr

/-- The system link port (R178, R180). -/
structure LinkPort where
  rx : RxState
  slot : SlotState
  sending : Option TxReply
  waiting : Option TxReply
  deriving DecidableEq, Repr

/-! ## The whole state -/

/-- The blocks that act on one another inside a step: part state, meters, channels, arbiter, output stage, zones, regulator, report queue. -/
structure Engine where
  part : PartState
  wake : WakePhase
  meters : Bank MeterRec 4
  channels : Bank Channel 6
  mar : Arbiter
  ost : OutputStage
  zones : Bank ZoneRec 6
  crg : Regulator
  reports : List Report
  deriving DecidableEq, Repr

/-- The state of the part and of the parameter memory beside it, and the queue of commands that wait. -/
structure State where
  run : RunState
  eng : Engine
  tab : Tables
  sbe : SensorBus
  cfc : Control
  link : LinkPort
  panel : PanelPort
  /-- what the external parameter memory holds; `none` is an invalid image (R193) -/
  stored : Option Image
  pending : List Instr
  deriving DecidableEq, Repr

/-! ## Values at reset -/

/-- The defaults of R194. -/
def defaultTuning : Tuning where
  prefetchMargin := 50
  meterHold := 5
  valveTimeout := 30
  equalizeTime := 60
  parkDelay := 600
  leadThreshold := 80
  leadTime := 10
  coolant := 36
  handOverTime := 3
  keep := false

/-- Every class of 1, 2, 3 permitted (R36). -/
def allClasses : ClassSet := ⟨true, true, true⟩

/-- A shipped zone entry: the limits given, every class, no reserve (R132). -/
def shippedZone (hardLow softLow softHigh hardHigh : Option Int) (hysteresis : Int) : ZoneEntry where
  limits := ⟨softLow, softHigh, hardLow, hardHigh, hysteresis⟩
  sourceClasses := allClasses
  sinkClasses := allClasses
  reserve := none

/-- The shipped zone table of R132. -/
def shippedZones : Bank ZoneEntry 6 :=
  #v[shippedZone (some (-300)) (some 50) (some 400) (some 550) 30,
     shippedZone (some (-350)) (some 0) (some 750) (some 950) 50,
     shippedZone (some (-200)) (some 100) (some 320) (some 500) 30,
     shippedZone none (some (-350)) (some 500) none 20,
     shippedZone none (some 200) none (some 1200) 100,
     shippedZone none (some 200) none (some 900) 50]

/-- The default role map of R116: O1 to O4 to the pumps, O5 to O8 to the rest. -/
def defaultRoleMap : Bank OutputNo 8 := #v[0, 1, 2, 3, 4, 5, 6, 7]

/-- The default settings of R153. -/
def defaultComfort : ComfortSettings := ⟨none, none, 10, 40, 900⟩

/-- A reading with no valid input (R12). -/
def Reading.absent : Reading := ⟨0, none, none, none⟩

/-- A meter after a power-on reset (R21). -/
def MeterRec.initial : MeterRec := ⟨.invalid, none, none, 0, none, 0, false, false⟩

/-- A channel after a power-on reset (R48). -/
def Channel.initial : Channel := ⟨none, false⟩

/-- The arbiter after a power-on reset (R87, R92). -/
def Arbiter.initial : Arbiter := ⟨[], [], ⟨none, .steady⟩⟩

/-- An output after a power-on reset (R131). Current and speed: DESIGN CHOICE 0 (log 1). -/
def OutputRec.initial : OutputRec := ⟨.inService, none, 0, 0, 0, 0, 0, 0, none⟩

/-- A valve after a power-on reset (R131). Feedback: DESIGN CHOICE absent (log 1). -/
def ValveRec.initial : ValveRec := ⟨.atPosition, none, none, 0, 0, 0, none, none⟩

/-- The output stage after a power-on reset, with the default role map. The mode is UNSET after a reset, which leaves the circuit as it stands (R87, R117). -/
def OutputStage.initial (circuit : Circuit) : OutputStage :=
  ⟨Vector.replicate 9 .initial, Vector.replicate 6 .initial, defaultRoleMap, none, circuit⟩

/-- A trip record without a trigger (R136). -/
def TripRecord.initial : TripRecord := ⟨none, none, none, .none⟩

/-- A zone after a power-on reset (R136). -/
def ZoneRec.initial : ZoneRec := ⟨.normal, false, false, false, .initial⟩

/-- The regulator after a power-on reset with no image (R151, R153, R154). -/
def Regulator.initial : Regulator := ⟨210, defaultComfort, .disabled⟩

/-- The engine after a power-on reset: STARTING, before the image or the defaults are installed. -/
def Engine.initial (circuit : Circuit) : Engine where
  part := .starting
  wake := .scanDue
  meters := Vector.replicate 4 .initial
  channels := Vector.replicate 6 .initial
  mar := .initial
  ost := .initial circuit
  zones := Vector.replicate 6 .initial
  crg := .initial
  reports := []

/-- The tables after a power-on reset: the defaults of R191, with the straps latched. -/
def Tables.initial (straps : Straps) : Tables where
  paths := Vector.replicate 24 none
  slots := Vector.replicate 96 .empty
  zones := shippedZones
  tuning := defaultTuning
  straps := straps

/-- The sensor bus engine after a power-on reset: the empty map, no scan (R7, R11, R12). -/
def SensorBus.initial : SensorBus where
  map := Vector.replicate 32 .unused
  applied := Vector.replicate 32 .unused
  inputs := Vector.replicate 32 none
  scan := none
  readings := Vector.replicate 6 .absent
  parkedTime := 0

/-- Configuration control after a power-on reset (R38, R40, R44, R191 to R196). Image status: DESIGN CHOICE NOT-LOADED (log 1). -/
def Control.initial : Control where
  mode := .operating
  locks := ⟨false, false, false⟩
  window := none
  lockout := true
  imageStatus := .notLoaded
  save := .none
  snapshot := none
  imageTuning := defaultTuning
  autoRelease := false
  parkTimer := 0

/-- The system link port after a reset (R178, R180, R186). -/
def LinkPort.initial : LinkPort := ⟨.hunting, .free, none, none⟩

/-- The panel link port after a reset (R163, R165). DESIGN CHOICE (log 1): no overlong mark, and no reply being sent or waiting. -/
def PanelPort.initial : PanelPort := ⟨[], false, false, none, none⟩

/-- The state that a power-on reset or a release of the reset pin leaves: the straps latched, the part STARTING, everything volatile at its reset value (R190). The parameter memory and the queue of commands are not the part's, and the compressor's circuit stands as it stood (R117). -/
def State.fresh (straps : Straps) (circuit : Circuit) (stored : Option Image) (pending : List Instr) : State where
  run := .running
  eng := .initial circuit
  tab := .initial straps
  sbe := .initial
  cfc := .initial
  link := .initial
  panel := .initial
  stored := stored
  pending := pending

/-- The machine right after reset. Straps clear, the circuit COOL and no image in the parameter memory: DESIGN CHOICE (log 1). -/
def State.reset : State := State.fresh ⟨false, false, false⟩ .cool none []

end Sys2Proof.Machine
end

