-- ==== Sys2Proof/Config.lean ====
section
/-! DEFINITION. What the spec leaves open and an implementation fixes: constants without a body, so that no proof can see their value (log 7, log 8). -/

namespace Sys2Proof.Config

open Sys2Proof Sys2Proof.Machine

/-- The design revision letter of IDENTIFY (R184): the spec does not say which. -/
opaque revisionLetter : Byte

/-- How many bytes a field of a reply takes beyond the fewest that hold its range: no rule gives the widths (R183, R187). -/
opaque wider (field : String) : Nat

/-- The number sent for a name of a field (a state, a mode, a flag), the names counted in the order of their table: no rule gives the numbers. -/
opaque nameCode (field : String) (name : Nat) : Nat

/-- The number sent for that many tenths below 0 of a quantity that is no temperature: R183 gives a form for a negative temperature alone. -/
opaque negativeCode (field : String) (tenths : Nat) : Nat

/-- The bytes that say how many entries a list in a reply has: no rule gives them. -/
opaque listMark (field : String) (length : Nat) : List Byte

end Sys2Proof.Config
end

