-- ==== Sys2Proof/Machine/Flags.lean ====
section
/-! DEFINITION. The computations and judgements of the spec that need no state beyond their arguments: roundings, the CRC, meter rate and scan heat, zone readings and verdicts, zone states, demands and corrections, ramps, bands. -/

namespace Sys2Proof.Machine

open Sys2Proof

/-! ## Rounding -/

/-- The nearest whole number to `num / den`, a half rounded up. -/
def roundUp (num den : Nat) : Nat := (2 * num + den) / (2 * den)

/-- The nearest whole number to `num / den`, a half rounded toward the higher (R12). -/
def roundHigher (num : Int) (den : Nat) : Int := (2 * num + den) / (2 * den)

/-- The nearest whole number to `num / den`, a half rounded away from zero (R15, R57). -/
def roundAway (num : Int) (den : Nat) : Int :=
  if num < 0 then -roundHigher (-num) den else roundHigher num den

/-- `x` held within `lo` and `hi`. -/
def clamp (lo hi x : Int) : Int := max lo (min hi x)

/-- The highest figure a record carries; it does not wrap (R189). -/
def recordCap (x : Nat) : Nat := min x 0xFFFFFFFE

/-- Counts of reports stop at 255 (R168). -/
def bumpCount (n : Nat) : Nat := min 255 (n + 1)

/-! ## The CRC of R177 -/

/-- One bit of the CRC: polynomial 1021 hexadecimal, most significant bit first. -/
def crcBit (c : Half) : Half := if c.msb then (c <<< 1) ^^^ 0x1021#16 else c <<< 1

/-- One byte into the CRC. -/
def crcByte (c : Half) (b : Byte) : Half :=
  let c := c ^^^ (b.zeroExtend 16 <<< 8)
  crcBit (crcBit (crcBit (crcBit (crcBit (crcBit (crcBit (crcBit c)))))))

/-- The CRC-16 of R177 over a run of bytes: initial value FFFF, neither reflected nor inverted. -/
def crc16 (bs : List Byte) : Half := bs.foldl crcByte 0xFFFF#16

/-! ## Sensors and zone readings -/

end Sys2Proof.Machine

namespace Sys2Proof

/-- The range a reply must lie in for the role, in tenths (R2). -/
def MapEntry.accepts : MapEntry → Int → Bool
  | .unused, _ => false
  | .zoneTemp _, v | .meterSupply _, v | .meterReturn _, v => decide (-400 ≤ v ∧ v ≤ 1500)
  | .meterFlow _, v => decide (0 ≤ v ∧ v ≤ 2000)

/-- Whether an entry is a METER-FLOW, whose value is a flow and no temperature (R2). -/
def MapEntry.isFlow : MapEntry → Bool
  | .meterFlow _ => true
  | .unused | .zoneTemp _ | .meterSupply _ | .meterReturn _ => false

/-- The value a read yields under the role, or a miss (R5). -/
def MapEntry.readValue (m : MapEntry) : SensorReply → Option Int
  | .number v => if m.accepts v then some v else none
  | .noAnswer | .corrupted => none

end Sys2Proof

namespace Sys2Proof.Machine

/-- An input that restarts: LOST, no value, miss count 3 (R4, R11). -/
def InputRec.lostRec : InputRec := ⟨.lost, none, 3⟩

/-- An input after a good read (R9). -/
def InputRec.good (v : Int) : InputRec := ⟨.valid, some v, 0⟩

/-- An input after a miss (R10): the count rises, at 3 the input is LOST and its value withdrawn. -/
def InputRec.missed (r : InputRec) : InputRec :=
  match r.status with
  | .lost => ⟨.lost, none, 3⟩
  | .valid => if r.misses + 1 < 3 then ⟨.valid, r.value, r.misses + 1⟩ else ⟨.lost, none, 3⟩

/-- The value an input counts with: its current value while VALID, the kept one included (R9, R12). -/
def InputRec.current (r : InputRec) : Option Int :=
  match r.status with
  | .valid => r.value
  | .lost => none

/-- The zone reading of a list of valid values (R12). -/
def readingOf (vs : List Int) : Reading :=
  match vs with
  | [] => Reading.absent
  | v :: rest =>
    { count := vs.length
      hottest := some (rest.foldl max v)
      coldest := some (rest.foldl min v)
      mean := some (roundHigher vs.sum vs.length) }

/-- Whether a value stands at or above a limit; absent on either side is no. -/
def atOrAbove (value limit : Option Int) : Bool :=
  match value, limit with
  | some v, some l => decide (l ≤ v)
  | _, _ => false

/-- Whether a value stands at or below a limit; absent on either side is no. -/
def atOrBelow (value limit : Option Int) : Bool :=
  match value, limit with
  | some v, some l => decide (v ≤ l)
  | _, _ => false

/-- The verdict DEPLETED (R138). -/
def depletedVerdict (l : Limits) (r : Reading) : Bool := atOrBelow r.coldest l.softLow

/-- The verdict FULL (R138). -/
def fullVerdict (l : Limits) (r : Reading) : Bool := atOrAbove r.hottest l.softHigh

/-- The state of a zone after a scan end's judgement (R137). -/
def zoneNext (l : Limits) (r : Reading) (st : ZoneState) : ZoneState :=
  match st with
  | .normal =>
    if r.count = 0 then .blind
    else if atOrAbove r.hottest l.hardHigh then .highTrip
    else if atOrBelow r.coldest l.hardLow then .lowTrip
    else .normal
  | .highTrip =>
    if r.count = 0 then .blind
    else if atOrBelow r.hottest (l.hardHigh.map (· - l.hysteresis - 1)) then .normal
    else .highTrip
  | .lowTrip =>
    if r.count = 0 then .blind
    else if atOrAbove r.coldest (l.hardLow.map (· + l.hysteresis + 1)) then .normal
    else .lowTrip
  | .blind => if r.count = 0 then .blind else .normal

/-- Whether a path's entry offends a zone that has entered a state (R139). -/
def offends (z : Zone) (st : ZoneState) (p : PathEntry) : Bool :=
  match st with
  | .normal => false
  | .highTrip => p.sink = z
  | .lowTrip => p.source = z
  | .blind => p.source = z || p.sink = z

end Sys2Proof.Machine

namespace Sys2Proof

/-- Whether a class is among the classes permitted; class 0 always is (R36). -/
def ClassSet.permits (s : ClassSet) (c : Fin 4) : Bool :=
  match c with
  | 0 => true
  | 1 => s.one
  | 2 => s.two
  | 3 => s.three

end Sys2Proof

namespace Sys2Proof.Machine

/-! ## Meters -/

/-- A meter's rate in tenths of a kilowatt, from flow, coolant constant, return and supply, all in tenths (R15). -/
def meterRate (flow : Int) (coolant : Nat) (ret supply : Int) : Int :=
  roundAway (flow * coolant * (ret - supply)) 6000

/-- The scan heat handed on, in tenths of a kilojoule, and the residue kept, in hundredths (R16). -/
def scanHeat (residue rate : Int) : Int × Int :=
  ((residue + rate).tdiv 10, (residue + rate).tmod 10)

/-- Heat or rate in the path's meter sense, a negative value taken as 0 (R57, R60). -/
def inSense (s : Sense) (x : Int) : Nat :=
  match s with
  | .positive => x.toNat
  | .negative => (-x).toNat

/-! ## Paths and roles -/

end Sys2Proof.Machine

namespace Sys2Proof

/-- The circuit of a path's compressor mode; NONE is `none`. -/
def PathMode.circuit : PathMode → Option Machine.Circuit
  | .none => Option.none
  | .cool => some .cool
  | .heat => some .heat

end Sys2Proof

namespace Sys2Proof.Machine

/-- The effective lead offset in percent (R23). -/
def effectiveLead (p : PathEntry) : Nat :=
  if p.leadOffset = 0 then (match p.regime with | .passive => 5 | .pumped => 10) else p.leadOffset

end Sys2Proof.Machine

namespace Sys2Proof

/-- The pump and fan roles (R86). -/
def Role.pumpOrFan : Role → Bool
  | .pumpBatt | .pumpDrive | .pumpCabin | .pumpAux | .fan => true
  | .compressor | .chiller | .heater => false

/-- The four pump roles (R124). -/
def Role.isPump : Role → Bool
  | .pumpBatt | .pumpDrive | .pumpCabin | .pumpAux => true
  | .compressor | .chiller | .heater | .fan => false

/-- The meter of a pump role's loop (R125). -/
def Role.loopMeter : Role → Option Meter
  | .pumpBatt => some .mBatt
  | .pumpDrive => some .mDrive
  | .pumpCabin => some .mCabin
  | .pumpAux => some .mAux
  | .compressor | .chiller | .heater | .fan => none

end Sys2Proof

namespace Sys2Proof.Machine

/-! ## Demands (levels in tenths of a percent, shares in percent) -/

/-- The feed-forward as a starting level (R56, R57). DESIGN CHOICE (log 36): rounded to the nearest 0.1 percent, a half up, which R57 says of a demand in RUNNING alone. -/
def startLevel (share rate capacity : Nat) : Nat := roundUp (share * rate * 10) capacity

/-- The MEASURE floor: one quarter of the share (R59). -/
def measureFloor (share : Nat) : Nat := roundUp (share * 10) 4

/-- The correction after one scan end, in hundredths of a percent, held within the share on both sides (R57). -/
def nextCorrection (gain target metered share : Nat) (correction : Int) : Int :=
  clamp (-(share * 100 : Nat)) (share * 100 : Nat)
    (correction + roundAway (gain * ((target : Int) - metered)) 10)

/-- The demand: feed-forward plus correction, held within 0 and the share, rounded (R57). -/
def demandOf (share rate capacity : Nat) (correction : Int) : Nat :=
  roundUp (clamp 0 (share * capacity * 100 : Nat)
    ((share * rate * 100 : Nat) + correction * capacity)).toNat (10 * capacity)

/-- The lead added to a demand and held at the share (R58). -/
def withLead (demand lead share : Nat) : Nat := min (demand + lead * 10) (share * 10)

/-- A demand in run-down with `left` of `length` scans left (R78). -/
def runDownLevel (entry left length : Nat) : Nat := roundUp (entry * left) length

/-- The regulator's target rate in tenths of a kilowatt (R159). -/
def comfortRate (gain : Nat) (target mean : Int) (capacity : Nat) : Nat :=
  min capacity (max 5 (roundUp (gain * (target - mean).natAbs) 10))

/-! ## Outputs and valves -/

/-- The kind of an output (R115). -/
def outputKind (o : OutputNo) : OutputKind :=
  if o.val < 4 || o.val = 8 then .pump
  else if o.val = 4 then .compressor
  else if o.val = 5 then .chiller
  else if o.val = 6 then .heater
  else .fan

/-- The kinds that have a speed and can stall (R115, R121). -/
def OutputKind.turns : OutputKind → Bool
  | .pump | .compressor | .fan => true
  | .chiller | .heater => false

/-- One scan's move of a level toward its target (R118). -/
def ramp (k : OutputKind) (level target : Nat) : Nat :=
  match k with
  | .pump | .fan => if level ≤ target then min target (level + 20) else max target (level - 20)
  | .compressor => if level ≤ target then min target (level + 5) else max target (level - 5)
  | .heater | .chiller => target

/-- Whether a feedback position lies within 3 percent of a position (R119). -/
def nearPosition (feedback position : Nat) : Bool :=
  decide (feedback ≤ position + 3 ∧ position ≤ feedback + 3)

/-- Whether a valve is in position: driven, read, and within the band (R119). -/
def ValveRec.inPosition (v : ValveRec) : Bool :=
  match v.commanded, v.feedback with
  | some p, some f => nearPosition f p
  | _, _ => false

/-- A good feedback reading lies in 0 to 100 percent (R120). DESIGN CHOICE (log 12): it is read in whole percent. -/
def goodFeedback : Option Int → Option Nat
  | some x => if 0 ≤ x ∧ x ≤ 100 then some x.toNat else none
  | none => none

end Sys2Proof.Machine
end

