-- ==== Sys2Proof/Machine/Operands.lean ====
section
/-! DEFINITION. The operand forms of the requests: numbers read as names, ranges and table constraints judged (R3, R24, R28, R116, R132, R153, R194), and the fixed byte forms of segments (R188). -/

namespace Sys2Proof.Machine

open Sys2Proof

/-! ## Request kinds -/

/-- The kinds of the catalogue (R183). -/
def catalogue : List Byte :=
  [0x01, 0x02, 0x10, 0x11, 0x12, 0x13, 0x20, 0x21, 0x22, 0x23, 0x24, 0x25, 0x26, 0x27,
   0x30, 0x31, 0x32, 0x40, 0x41, 0x42, 0x43, 0x50, 0x51, 0x52, 0x53, 0x54, 0x55, 0x56, 0x57, 0x58]

/-! ## Numbers read as names -/

/-- A number below `n` as an index. -/
def finOf (n x : Nat) : Option (Fin n) := if h : x < n then some ⟨x, h⟩ else none

/-- The zone of a number, 0 to 5 (R1). -/
def zoneOf (n : Nat) : Option Zone := Zone.all[n]?

/-- The meter of a number, 0 to 3. -/
def meterOf (n : Nat) : Option Meter := Meter.all[n]?

/-- The role of a number, 0 to 7. -/
def roleOf (n : Nat) : Option Role := Role.all[n]?

/-- A valve by its number, 1 to 6. -/
def valveOf (n : Nat) : Option ValveNo := if n = 0 then none else finOf 6 (n - 1)

/-! ## Paths (R23, R24) -/

/-- The constraints of R24 on a DEFINED entry. -/
def pathOk (p : PathEntry) : Bool :=
  p.source ≠ p.sink
  && (match p.sink with | .battery | .drive | .cabin | .ambient => true | .resistor | .inlet => false)
  && decide (10 ≤ p.capacity ∧ p.capacity ≤ 1500)
  && decide (1 ≤ p.roles.length ∧ p.roles.length ≤ 8)
  && decide (p.roles.map Prod.fst).Nodup
  && p.roles.all (fun x => decide (1 ≤ x.2 ∧ x.2 ≤ 100))
  && decide (p.valves.length ≤ 6)
  && decide (p.valves.map Prod.fst).Nodup
  && p.valves.all (fun x => decide (x.2 ≤ 100))
  && decide (1 ≤ p.gain ∧ p.gain ≤ 100)
  && decide (p.leadOffset ≤ 30)
  && decide (p.runDown ≤ 30)
  && (decide (p.regime = .pumped) == p.roles.any (fun x => x.1 = .compressor || x.1 = .heater))
  && (decide (p.mode ≠ .none) == p.roles.any (fun x => x.1 = .compressor))

/-- The fields of a DEFINED path write read as an entry, when every number names something. -/
def pathOf (p : RawPath) : Option PathEntry := do
  let source ← zoneOf p.source
  let sink ← zoneOf p.sink
  let meter ← meterOf p.meter
  let sense ← [Sense.positive, Sense.negative][p.sense]?
  let regime ← [Regime.passive, Regime.pumped][p.regime]?
  let mode ← [PathMode.none, PathMode.cool, PathMode.heat][p.mode]?
  let roles ← p.roles.mapM (fun x => (roleOf x.1).map (·, x.2))
  let valves ← p.valves.mapM (fun x => (valveOf x.1).map (·, x.2))
  some { source, sink, meter, sense, capacity := p.capacity, regime, mode, roles, valves,
         gain := p.gain, leadOffset := p.leadOffset, runDown := p.runDown }

/-- What a WRITE PATH would put into the entry: `none` is BAD-ARGUMENT; an EMPTY write gives `some none` (R24, R25). -/
def pathWriteOf : PathWrite → Option (Option PathEntry)
  | .empty => some none
  | .badKind => none
  | .defined p =>
    match pathOf p with
    | some e => if pathOk e then some (some e) else none
    | none => none

/-! ## Zones (R132 to R134) -/

/-- Which limits exist for a zone, in the order soft low, soft high, hard low, hard high (R1). -/
def limitsPresent : Zone → Bool × Bool × Bool × Bool
  | .battery | .drive | .cabin => (true, true, true, true)
  | .ambient => (true, true, false, false)
  | .resistor | .inlet => (true, false, false, true)

/-- A limit is present exactly when it should be, and then in range (R132, R133). -/
def limitOk (present : Bool) : Option Int → Bool
  | none => !present
  | some v => present && decide (-400 ≤ v ∧ v ≤ 1500)

/-- `a` is below `b` where both are present (R132). -/
def belowWhereBoth : Option Int → Option Int → Bool
  | some a, some b => decide (a < b)
  | _, _ => true

/-- The constraints of R132 on a zone's limit group. -/
def limitsOk (z : Zone) (l : Limits) : Bool :=
  limitOk (limitsPresent z).1 l.softLow
  && limitOk (limitsPresent z).2.1 l.softHigh
  && limitOk (limitsPresent z).2.2.1 l.hardLow
  && limitOk (limitsPresent z).2.2.2 l.hardHigh
  && decide (5 ≤ l.hysteresis ∧ l.hysteresis ≤ 100)
  && belowWhereBoth l.hardLow l.softLow
  && belowWhereBoth l.softLow l.softHigh
  && belowWhereBoth l.softHigh l.hardHigh
  && belowWhereBoth l.softLow l.hardHigh

/-- A slot of the reserve area (R27). -/
def inReserveArea (s : SlotNo) : Bool := decide (80 ≤ s.val)

/-- The constraints of R132 to R134 on a zone entry. -/
def zoneOk (z : Zone) (e : ZoneEntry) : Bool :=
  limitsOk z e.limits && (match e.reserve with | none => true | some r => inReserveArea r.slot)

/-- A list of class numbers as a subset of 1, 2, 3 (R41). -/
def classSetOf (l : List Nat) : Option ClassSet :=
  if l.all (fun c => decide (1 ≤ c ∧ c ≤ 3)) then
    some ⟨l.contains 1, l.contains 2, l.contains 3⟩
  else none

/-- The groups of a WRITE ZONE after judging: what each carried group replaces. -/
structure ZoneChange where
  limits : Option Limits
  access : Option (ClassSet × ClassSet)
  reserve : Option (Option Reserve)
  deriving DecidableEq, Repr

/-- The limit group of a WRITE ZONE judged (R133): an absent group changes nothing. -/
def limitChangeOf (z : Zone) : Option RawLimits → Option (Option Limits)
  | none => some none
  | some r =>
    let l : Limits := ⟨r.softLow, r.softHigh, r.hardLow, r.hardHigh, r.hysteresis⟩
    if limitsOk z l then some (some l) else none

/-- The access group judged (R41). -/
def accessChangeOf : Option (List Nat × List Nat) → Option (Option (ClassSet × ClassSet))
  | none => some none
  | some (a, b) =>
    match classSetOf a, classSetOf b with
    | some x, some y => some (some (x, y))
    | _, _ => none

/-- The reserve group judged (R134). -/
def reserveChangeOf : Option (Option Nat × Option Nat) → Option (Option (Option Reserve))
  | none => some none
  | some (none, none) => some (some none)
  | some (some c, some s) =>
    match finOf 6 c, finOf 96 s with
    | some c, some s => if inReserveArea s then some (some (some ⟨c, s⟩)) else none
    | _, _ => none
  | some (none, some _) | some (some _, none) => none

/-- A WRITE ZONE's groups judged; `none` is BAD-ARGUMENT. It carries one group or more (R41). DESIGN CHOICE (log 26): one that carries none is BAD-ARGUMENT. -/
def zoneChangeOf (z : Zone) (w : ZoneWrite) : Option ZoneChange :=
  if w.limits.isNone && w.access.isNone && w.reserve.isNone then none
  else
    match limitChangeOf z w.limits, accessChangeOf w.access, reserveChangeOf w.reserve with
    | some l, some a, some r => some ⟨l, a, r⟩
    | _, _, _ => none

/-- A zone entry with the carried groups replaced (R41). -/
def ZoneChange.apply (c : ZoneChange) (e : ZoneEntry) : ZoneEntry where
  limits := c.limits.getD e.limits
  sourceClasses := (c.access.map Prod.fst).getD e.sourceClasses
  sinkClasses := (c.access.map Prod.snd).getD e.sinkClasses
  reserve := c.reserve.getD e.reserve

/-! ## Sensor map (R2, R3, R46) -/

/-- The role and name of a map entry, when the number names something. -/
def mapEntryOf : RawRole → Option MapEntry
  | .unused => some .unused
  | .zoneTemp z => (zoneOf z).map .zoneTemp
  | .meterFlow m => (meterOf m).map .meterFlow
  | .meterSupply m => (meterOf m).map .meterSupply
  | .meterReturn m => (meterOf m).map .meterReturn
  | .unknown => none

/-- The constraints of R3 on a map. -/
def mapOk (m : Bank MapEntry 32) : Bool :=
  Zone.all.all (fun z => decide (m.toList.count (.zoneTemp z) ≤ 4))
  && Meter.all.all (fun k =>
    decide (m.toList.count (.meterFlow k) ≤ 1) && decide (m.toList.count (.meterSupply k) ≤ 1)
    && decide (m.toList.count (.meterReturn k) ≤ 1))

/-- The entries of a WRITE SENSOR MAP read as inputs and entries. -/
def mapEntriesOf (es : List RawMapEntry) : Option (List (InputNo × MapEntry)) :=
  es.mapM (fun e => do
    let i ← finOf 32 e.input
    let m ← mapEntryOf e.role
    some (i, m))

/-- The map a WRITE SENSOR MAP would leave; `none` is BAD-ARGUMENT (R3, R46). -/
def mapWriteOf (m : Bank MapEntry 32) (es : List RawMapEntry) : Option (Bank MapEntry 32) :=
  match mapEntriesOf es with
  | none => none
  | some l =>
    let m' := l.foldl (fun b x => Bank.put b x.1 x.2) m
    if es.length ≤ 32 ∧ (l.map Prod.fst).Nodup ∧ mapOk m' then some m' else none

/-! ## Settings (R153, R194) and the role map (R116) -/

/-- The ranges of R194. -/
def tuningOk (t : Tuning) : Bool :=
  decide (1 ≤ t.prefetchMargin ∧ t.prefetchMargin ≤ 2000)
  && decide (t.meterHold ≤ 30)
  && decide (5 ≤ t.valveTimeout ∧ t.valveTimeout ≤ 60)
  && decide (30 ≤ t.equalizeTime ∧ t.equalizeTime ≤ 180)
  && decide (t.parkDelay = 0 ∨ (10 ≤ t.parkDelay ∧ t.parkDelay ≤ 3600))
  && decide (t.leadThreshold ≤ 1500)
  && decide (2 ≤ t.leadTime ∧ t.leadTime ≤ 30)
  && decide (30 ≤ t.coolant ∧ t.coolant ≤ 42)
  && decide (1 ≤ t.handOverTime ∧ t.handOverTime ≤ 10)

/-- A path setting read: none, or an entry number. -/
def pathSettingOf : Option Nat → Option (Option PathNo)
  | none => some none
  | some n => (finOf 24 n).map some

/-- The settings of a COMFORT ON in range (R153), or `none`. -/
def comfortOf (r : RawComfort) : Option ComfortSettings :=
  match pathSettingOf r.heatPath, pathSettingOf r.coolPath with
  | some h, some c =>
    if 2 ≤ r.deadband ∧ r.deadband ≤ 30 ∧ 5 ≤ r.gain ∧ r.gain ≤ 200 ∧ r.waitLimit ≤ 1800 then
      some ⟨h, c, r.deadband, r.gain, r.waitLimit⟩
    else none
  | _, _ => none

/-- The constraints of R116 on a role map, with O9 only where the SPARE strap is set. -/
def roleMapOk (spare : Bool) (m : Bank OutputNo 8) : Bool :=
  decide m.toList.Nodup
  && Role.all.all (fun r =>
    if r.isPump then outputKind (Bank.nth m r.idx) = .pump && (spare || decide ((Bank.nth m r.idx).val < 8))
    else decide (Bank.nth m r.idx = Bank.nth defaultRoleMap r.idx))

/-- The table constraints an image must meet to be installed (R191): those of R3, R24 and R132 to R134. -/
def imageOk (i : Image) : Bool :=
  i.paths.toList.all (fun p => match p with | none => true | some e => pathOk e)
  && Zone.all.all (fun z => zoneOk z (Bank.nth i.zones z.idx))
  && mapOk i.map

/-! ## Segment bodies (R188) -/

/-- A number in two bytes, high byte first (R183). -/
def be16 (n : Nat) : List Byte := [BitVec.ofNat 8 (n / 256), BitVec.ofNat 8 n]

/-- A number in four bytes, high byte first (R183). -/
def be32 (n : Nat) : List Byte := be16 (n / 65536) ++ be16 n

/-- Two bytes as a number. -/
def num16 (h l : Byte) : Nat := h.toNat * 256 + l.toNat

/-- The flags byte of a TRANSFER (R188). -/
def flagsByte (f : SegFlags) : Byte :=
  BitVec.ofNat 8 (f.continue_.toNat + 2 * f.next.toNat + 4 * f.shortOk.toNat + 8 * f.progress.toNat + 16 * f.measure.toNat)

/-- The flags of a flags byte. -/
def flagsOf (b : Byte) : SegFlags := ⟨b.getLsbD 0, b.getLsbD 1, b.getLsbD 2, b.getLsbD 3, b.getLsbD 4⟩

/-- The ranges of R28 on a TRANSFER's numbers. -/
def transferOk (t : Transfer) : Bool :=
  decide (1 ≤ t.quantity ∧ t.quantity ≤ 65000) && decide (1 ≤ t.rate ∧ t.rate ≤ 1500) && decide (t.timeLimit ≤ 7200)

/-- Whether a segment's fields lie in their ranges (R28, R29). -/
def segmentOk : Segment → Bool
  | .transfer t => transferOk t
  | .empty | .jump _ => true

/-- The 10 bytes of a segment body (R188). -/
def segmentBytes : Segment → List Byte
  | .empty => List.replicate 10 0
  | .jump j => [2, BitVec.ofNat 8 j.val] ++ List.replicate 8 0
  | .transfer t =>
    [1, BitVec.ofNat 8 t.path.val] ++ be16 t.quantity ++ be16 t.rate ++ be16 t.timeLimit
      ++ [BitVec.ofNat 8 t.label.val, flagsByte t.flags]

/-- The label of a byte. -/
def labelOf (b : Byte) : Fin 256 := b.toFin

/-- A segment body read (R188): `none` where a kind, a zero byte, a flag bit or a field is not as it must be. -/
def segmentOf (bs : List Byte) : Option Segment :=
  match bs with
  | [kind, b1, b2, b3, b4, b5, b6, b7, b8, b9] =>
    if kind = 0 then
      if [b1, b2, b3, b4, b5, b6, b7, b8, b9].all (· = 0) then some .empty else none
    else if kind = 2 then
      if [b2, b3, b4, b5, b6, b7, b8, b9].all (· = 0) then (finOf 96 b1.toNat).map .jump else none
    else if kind = 1 then
      match finOf 24 b1.toNat with
      | none => none
      | some p =>
        let t : Transfer := ⟨p, num16 b2 b3, num16 b4 b5, num16 b6 b7, labelOf b8, flagsOf b9⟩
        if transferOk t ∧ b9.toNat < 32 then some (.transfer t) else none
    else none
  | _ => none

/-- Cut a run of bytes into `n` bodies of 10 bytes. -/
def cutBodies : Nat → List Byte → List (List Byte)
  | 0, _ => []
  | n + 1, bs => bs.take 10 :: cutBodies n (bs.drop 10)

/-- A WRITE SEGMENTS body judged (R30, R188): first slot, count and segments, or `none` for BAD-ARGUMENT. -/
def segmentWriteOf (body : List Byte) : Option (Nat × List Segment) :=
  match body with
  | first :: count :: rest =>
    let f := first.toNat
    let n := count.toNat
    if 1 ≤ n ∧ n ≤ 8 ∧ rest.length = 10 * n ∧ f + n ≤ 96 ∧ (f + n ≤ 80 ∨ 80 ≤ f) then
      (((cutBodies n rest).mapM segmentOf)).map (f, ·)
    else none
  | _ => none

end Sys2Proof.Machine
end

