-- ==== Sys2Proof/Machine/Ops.lean ====
section
/-! DEFINITION. The named operations over the engine's banks, the report queue and the table lookups, which every meaning is written over. -/

namespace Sys2Proof.Machine

open Sys2Proof

/-! ## The banks -/

def Engine.channel (e : Engine) (c : ChannelNo) : Channel := Bank.nth e.channels c

def Engine.putChannel (e : Engine) (c : ChannelNo) (x : Channel) : Engine :=
  { e with channels := Bank.put e.channels c x }

/-- The order on a channel; `none` when it is IDLE (R48). -/
def Engine.order (e : Engine) (c : ChannelNo) : Option Order := (e.channel c).order

/-- The channel with its order replaced; the record-queued flag stays (R48). -/
def Engine.putOrder (e : Engine) (c : ChannelNo) (o : Option Order) : Engine :=
  e.putChannel c { e.channel c with order := o }

/-- The order on a channel changed, when there is one. -/
def Engine.mapOrder (e : Engine) (c : ChannelNo) (f : Order → Order) : Engine :=
  match e.order c with
  | none => e
  | some o => e.putOrder c (some (f o))

def Engine.zone (e : Engine) (z : Zone) : ZoneRec := Bank.nth e.zones z.idx

def Engine.putZone (e : Engine) (z : Zone) (x : ZoneRec) : Engine :=
  { e with zones := Bank.put e.zones z.idx x }

def Engine.meter (e : Engine) (m : Meter) : MeterRec := Bank.nth e.meters m.idx

def Engine.putMeter (e : Engine) (m : Meter) (x : MeterRec) : Engine :=
  { e with meters := Bank.put e.meters m.idx x }

def Engine.output (e : Engine) (o : OutputNo) : OutputRec := Bank.nth e.ost.outputs o

def Engine.putOutput (e : Engine) (o : OutputNo) (x : OutputRec) : Engine :=
  { e with ost := { e.ost with outputs := Bank.put e.ost.outputs o x } }

def Engine.valve (e : Engine) (v : ValveNo) : ValveRec := Bank.nth e.ost.valves v

def Engine.putValve (e : Engine) (v : ValveNo) (x : ValveRec) : Engine :=
  { e with ost := { e.ost with valves := Bank.put e.ost.valves v x } }

/-- The regulator's state replaced (R154). -/
def Engine.putRegState (e : Engine) (r : RegState) : Engine := { e with crg := { e.crg with state := r } }

/-- The channels in number order. -/
def allChannels : List ChannelNo := [0, 1, 2, 3, 4, 5]

/-- The outputs in number order. -/
def allOutputs : List OutputNo := [0, 1, 2, 3, 4, 5, 6, 7, 8]

/-- The valves in number order. -/
def allValves : List ValveNo := [0, 1, 2, 3, 4, 5]

/-- Whether every channel is IDLE. -/
def Engine.allIdle (e : Engine) : Bool := allChannels.all (fun c => (e.order c).isNone)

/-- The output the role map gives a role (R116). -/
def Engine.mapped (e : Engine) (r : Role) : OutputNo := Bank.nth e.ost.roleMap r.idx

/-- The role an output serves; none for the spare (R116). -/
def OutputStage.served (s : OutputStage) (o : OutputNo) : Option Role :=
  Role.all.find? (fun r => Bank.nth s.roleMap r.idx = o)

/-- Whether an output exists: O9 only where the SPARE strap was latched set (R115). -/
def outputPresent (straps : Straps) (o : OutputNo) : Bool := straps.spare || decide (o.val < 8)

/-- The spare: the present PUMP output that serves no role (R116). -/
def OutputStage.spare (s : OutputStage) (straps : Straps) : Option OutputNo :=
  allOutputs.find? (fun o => outputKind o = .pump && outputPresent straps o && (s.served o).isNone)

/-! ## The tables -/

/-- What a lookup of an EMPTY entry gives; no copy names one (R34, R45), so no rule reads it. -/
def blankEntry : PathEntry :=
  ⟨.battery, .drive, .mBatt, .positive, 10, .passive, .none, [], [], 1, 0, 0⟩

/-- The entry a copy names: DEFINED while the copy is held (R37, R45). -/
def Tables.entry (t : Tables) (p : PathNo) : PathEntry := (Bank.nth t.paths p).getD blankEntry

/-- A zone's entry of the zone table. -/
def Tables.zone (t : Tables) (z : Zone) : ZoneEntry := Bank.nth t.zones z.idx

/-- The prefetch margin in tenths of a kilojoule (R65). -/
def Tables.margin (t : Tables) : Nat := t.tuning.prefetchMargin * 10

/-! ## The report queue (R167, R168) -/

/-- The kind and key of a report (R167). -/
def ReportBody.key : ReportBody → ReportKey
  | .completion r => .completion r.channel
  | .progress n => .progress n.channel
  | .zone z => .zone z.zone
  | .output o => .output o.output

def Report.key (r : Report) : ReportKey := r.body.key

/-- Whether a report with this key stands in the queue. -/
def standsIn (q : List Report) (k : ReportKey) : Bool := q.any (fun r => r.key = k)

/-- A report handed to the queue (R168): updated in place when one of its kind and key stands, otherwise queued at the back with count 0. -/
def handReport (q : List Report) (b : ReportBody) : List Report :=
  if standsIn q b.key then q.map (fun r => if r.key = b.key then ⟨b, bumpCount r.count⟩ else r)
  else q ++ [⟨b, 0⟩]

/-- The engine with a report handed (R168). -/
def Engine.hand (e : Engine) (b : ReportBody) : Engine := { e with reports := handReport e.reports b }

/-- ATTN is low exactly while the queue is not empty (R174). -/
def Engine.attnLow (e : Engine) : Bool := !e.reports.isEmpty

/-- The zone report formed from a zone's trip record and state (R147, R148). -/
def Engine.zoneReport (e : Engine) (z : Zone) : ReportBody :=
  let r := e.zone z
  .zone ⟨z, r.trip.trigger, r.state, r.trip.hottest, r.trip.coldest, r.trip.outcome⟩

/-- The zone's report handed (R148). -/
def Engine.handZone (e : Engine) (z : Zone) : Engine := e.hand (e.zoneReport z)

/-- The output report formed from an output's state and the role it serves (R123). -/
def Engine.outputReport (e : Engine) (o : OutputNo) : ReportBody :=
  let r := e.output o
  .output ⟨o, e.ost.served o, r.fault, r.state⟩

/-- The completion record of a channel taken out of the queue, wherever it stands (R80, R173). -/
def recordIn (q : List Report) (c : ChannelNo) : Option Record :=
  q.findSome? (fun r =>
    match r.body with
    | .completion x => if x.channel = c then some x else none
    | _ => none)

/-- The queue without the completion record of a channel (R173). -/
def withoutRecord (q : List Report) (c : ChannelNo) : List Report :=
  q.filter (fun r => decide (r.key ≠ .completion c))

/-! ## Waking and the trip record -/

/-- A PARKED part enters WAKING; any other part state stays (R197). -/
def Engine.wakeUp (e : Engine) : Engine :=
  match e.part with
  | .parked => { e with part := .waking, wake := .scanDue }
  | .starting | .ready | .waking => e

/-- The reserve outcome of a zone's trip record set (R147). -/
def Engine.setOutcome (e : Engine) (z : Zone) (x : ReserveOutcome) : Engine :=
  e.putZone z { e.zone z with trip := { (e.zone z).trip with outcome := x } }

/-- The reserve-pending flag of a zone set or cleared (R136). -/
def Engine.setPending (e : Engine) (z : Zone) (b : Bool) : Engine :=
  e.putZone z { e.zone z with pending := b }

/-- Whether the zone's own reserve order is running, on any channel (R141). -/
def Engine.ownReserve (e : Engine) (z : Zone) : Bool :=
  allChannels.any (fun c => (e.order c).any (fun o => o.owner = .reserve z))

/-- Whether some zone is reserve-pending for a channel (R143, R157). -/
def Engine.pendingFor (e : Engine) (t : Tables) (c : ChannelNo) : Bool :=
  Zone.all.any (fun z => (e.zone z).pending && (t.zone z).reserve.any (fun r => r.channel = c))

end Sys2Proof.Machine
end

