-- ==== Sys2Proof/Machine/Chain.lean ====
section
/-! DEFINITION. Fetch and validation of segments: locating (R33), the checks of R34 and R36, the setup check (R52), the prefetch (R65, R66). -/

namespace Sys2Proof.Machine

open Sys2Proof

/-! ## Endings by cause -/

/-- A program error with its failing slot (R35). -/
def Ending.program (d : ProgramDetail) (s : Option SlotNo) : Ending := ⟨.programError, .program d, s⟩

/-- A cause without detail (R82). -/
def Ending.plain (c : Cause) : Ending := ⟨c, .absent, none⟩

/-- A cause with a zone as detail (R82). -/
def Ending.atZone (c : Cause) (z : Zone) : Ending := ⟨c, .zone z, none⟩

/-- METER-LOST with the meter as detail (R82). -/
def Ending.meterLost (m : Meter) : Ending := ⟨.meterLost, .meter m, none⟩

/-- VALVE-FAULT with the valve as detail (R82). -/
def Ending.valveFault (v : ValveNo) : Ending := ⟨.valveFault, .valve v, none⟩

/-! ## Locating (R32, R33) -/

/-- Whether an owner's orders are confined to the reserve area (R32). -/
def Owner.inReserve : Owner → Bool
  | .reserve _ => true
  | .host | .regulator => false

/-- Whether a slot lies in the order area (R32). -/
def inArea (reserve : Bool) (s : SlotNo) : Bool := inReserveArea s == reserve

/-- The segment found from slot `t`: a TRANSFER with its slot, or the program error (R33). -/
def locateAt (slots : Bank Segment 96) (reserve : Bool) (t : SlotNo) : Except Ending (SlotNo × Transfer) :=
  match Bank.nth slots t with
  | .transfer x => .ok (t, x)
  | .empty => .error (.program .emptySlot (some t))
  | .jump j =>
    if inArea reserve j then
      match Bank.nth slots j with
      | .jump _ => .error (.program .jumpToJump (some t))
      | .empty => .error (.program .emptySlot (some j))
      | .transfer x => .ok (j, x)
    else .error (.program .jumpOutOfRange (some t))

/-- The successor of the segment in slot `s` (R29, R33). -/
def locateAfter (slots : Bank Segment 96) (reserve : Bool) (s : SlotNo) : Except Ending (SlotNo × Transfer) :=
  if h : s.val + 1 < 96 then
    if s.val = 79 ∧ reserve = false then .error (.program .areaCrossed (some s))
    else locateAt slots reserve ⟨s.val + 1, h⟩
  else .error (.program .pastEnd (some s))

/-- The copy of a TRANSFER with its slot (R37). -/
def copyOf (s : SlotNo) (x : Transfer) : Copy :=
  ⟨x.path, some x.quantity, x.rate, x.timeLimit, x.label, x.flags, some s⟩

/-! ## Validation (R34, R36) -/

/-- The zone access check of a class on a path (R36). -/
def accessCheck (t : Tables) (cls : Fin 4) (p : PathEntry) : Option Ending :=
  if !(t.zone p.source).sourceClasses.permits cls then some (.atZone .protection p.source)
  else if !(t.zone p.sink).sinkClasses.permits cls then some (.atZone .protection p.sink)
  else none

/-- The checks of R34 in their order, then the zone access check of R36. -/
def validate (t : Tables) (cls : Fin 4) (before : Option Copy) (x : Copy) : Option Ending :=
  if x.flags.continue_ && x.flags.next then some (.program .flagConflict x.slot)
  else
    match Bank.nth t.paths x.path with
    | none => some (.program .undefinedPath x.slot)
    | some p =>
      if p.capacity < x.rate then some (.program .rateRange x.slot)
      else if before.any (fun b => b.flags.continue_ && decide (b.path ≠ x.path)) then
        some (.program .continuePathChange x.slot)
      else accessCheck t cls p

/-! ## The setup check (R52) -/

/-- The setup check on one zone of a path: BLIND, or the trip that would be made worse, unless the order is that zone's own reserve. -/
def setupZone (zones : Zone → ZoneState) (owner : Owner) (worse : ZoneState) (z : Zone) : Option Ending :=
  if zones z = .blind then some (.atZone .zoneBlind z)
  else if zones z = worse ∧ owner ≠ .reserve z then some (.atZone .zoneTrip z)
  else none

/-- The setup check of a path: the source first, then the sink (R52). -/
def setupCheck (zones : Zone → ZoneState) (owner : Owner) (p : PathEntry) : Option Ending :=
  match setupZone zones owner .lowTrip p.source with
  | some g => some g
  | none => setupZone zones owner .highTrip p.sink

/-- The zone states as the engine holds them. -/
def Engine.zoneStates (e : Engine) : Zone → ZoneState := fun z => (e.zone z).state

/-- The setup check of a copy against the zone states as they stand (R52). -/
def Engine.setup (e : Engine) (t : Tables) (owner : Owner) (x : Copy) : Option Ending :=
  setupCheck e.zoneStates owner (t.entry x.path)

/-! ## Fetches -/

/-- The first segment of an order: located, copied, validated, and set up (R51, R54). -/
def Engine.fetchFirst (e : Engine) (t : Tables) (owner : Owner) (cls : Fin 4) (first : SlotNo) :
    Except Ending Copy :=
  match locateAt t.slots owner.inReserve first with
  | .error g => .error g
  | .ok (s, x) =>
    let c := copyOf s x
    match validate t cls none c with
    | some g => .error g
    | none =>
      match e.setup t owner c with
      | some g => .error g
      | none => .ok c

/-- The successor of an order's current copy, located and validated (R66). An internal copy has no slot and no successor (R65). -/
def successorOf (t : Tables) (o : Order) : Except Ending Copy :=
  match o.copy.slot with
  | none => .error (.program .pastEnd none)
  | some s =>
    match locateAfter t.slots o.owner.inReserve s with
    | .error g => .error g
    | .ok (u, x) =>
      let c := copyOf u x
      match validate t o.cls (some o.copy) c with
      | some g => .error g
      | none => .ok c

/-- Whether a copy carries CONTINUE or NEXT. -/
def Copy.chains (c : Copy) : Bool := c.flags.continue_ || c.flags.next

/-- The prefetch and what it keeps (R66). -/
def Engine.prefetched (e : Engine) (t : Tables) (o : Order) : Order :=
  match successorOf t o with
  | .error g => { o with prefetchMade := true, next := none, failure := some g }
  | .ok c => { o with prefetchMade := true, next := some c, failure := e.setup t o.owner c }

/-- Whether the prefetch of the current segment is due (R65). -/
def prefetchDue (t : Tables) (o : Order) : Bool :=
  o.copy.chains && !o.prefetchMade && o.remaining.any (fun r => decide (r ≤ t.margin))

/-- The prefetch made when it is due (R65, R66). -/
def Engine.prefetchOrder (e : Engine) (t : Tables) (o : Order) : Order :=
  if prefetchDue t o then e.prefetched t o else o

/-- The prefetch of a channel's current segment made when it is due. -/
def Engine.prefetch (e : Engine) (t : Tables) (c : ChannelNo) : Engine :=
  e.mapOrder c (fun o => e.prefetchOrder t o)

/-- The successor that a transition takes: the prefetched one, or one fetched now as a prefetch would be (R67). -/
def Engine.withSuccessor (e : Engine) (t : Tables) (o : Order) : Order :=
  if o.prefetchMade then o else e.prefetched t o

/-- Whether a pending failure ends the order when the chain reaches the successor (R70). -/
def Ending.standsAtTransition (g : Ending) : Bool :=
  decide (g.cause = .programError ∨ g.cause = .protection)

end Sys2Proof.Machine
end

