-- ==== Sys2Proof/Machine/Demands.lean ====
section
/-! DEFINITION. The demands of a channel: starting levels (R56), regulated demands with correction and lead (R57, R58), the MEASURE floor (R59), the falling demands of a run-down (R78), and the entry to RUNNING (R56, R64). -/

namespace Sys2Proof.Machine

open Sys2Proof

/-- No demand on any role. -/
def noDemands : Bank Nat 8 := Vector.replicate 8 0

/-- No correction on any role. -/
def noCorrections : Bank Int 8 := Vector.replicate 8 0

/-- A value for every role of a role list, and a base value for the rest. -/
def overRoles {α : Type} (base : Bank α 8) (roles : List (Role × Nat)) (f : Role → Nat → α) : Bank α 8 :=
  roles.foldl (fun b x => Bank.put b x.1.idx (f x.1 x.2)) base

/-- The starting level of a role (R56, R59). -/
def startDemand (p : PathEntry) (x : Copy) (r : Role) (share : Nat) : Nat :=
  if r.pumpOrFan then
    if x.flags.measure then measureFloor share else startLevel share x.rate p.capacity
  else 0

/-- The starting levels of a channel in SETTING (R56). -/
def startDemands (p : PathEntry) (x : Copy) : Bank Nat 8 := overRoles noDemands p.roles (startDemand p x)

/-- The demand of a role in RUNNING from its correction (R57 to R59). -/
def runDemand (p : PathEntry) (x : Copy) (corrections : Bank Int 8) (lead : Bool) (r : Role) (share : Nat) : Nat :=
  if x.flags.measure then (if r.pumpOrFan then measureFloor share else 0)
  else
    let d := demandOf share x.rate p.capacity (Bank.nth corrections r.idx)
    if lead then withLead d (effectiveLead p) share else d

/-- The demands of a channel in RUNNING from the corrections as they stand (R57 to R59). -/
def runDemands (p : PathEntry) (x : Copy) (corrections : Bank Int 8) (lead : Bool) : Bank Nat 8 :=
  overRoles noDemands p.roles (runDemand p x corrections lead)

/-- The corrections after one scan end of regulation (R57); a MEASURE segment keeps them at 0 (R59). -/
def movedCorrections (p : PathEntry) (x : Copy) (metered : Nat) (corrections : Bank Int 8) : Bank Int 8 :=
  if x.flags.measure then noCorrections
  else overRoles noCorrections p.roles (fun r share =>
    nextCorrection p.gain x.rate metered share (Bank.nth corrections r.idx))

/-- A lead is being applied while its timer runs (R58). -/
def Order.leading (o : Order) : Bool := o.lead.any (fun n => decide (0 < n))

/-- The rate a meter counts with: computed when VALID, held when HOLDING or HAND-OVER (R16, R57). -/
def MeterRec.countingRate (m : MeterRec) : Option Int :=
  match m.state with
  | .valid => m.rate
  | .holding | .handOver => m.held
  | .invalid => none

/-- The metered rate in the path's sense (R57). -/
def meteredRate (p : PathEntry) (m : MeterRec) : Nat := inSense p.sense (m.countingRate.getD 0)

/-- Demands formed from the corrections as they stand (R57 to R59). -/
def Order.formed (o : Order) (p : PathEntry) : Order :=
  { o with demands := runDemands p o.copy o.corrections o.leading }

/-- One scan end of regulation: corrections moved unless the meter is held, then demands formed (R57, R76). -/
def Order.regulated (o : Order) (p : PathEntry) (m : MeterRec) : Order :=
  let o' := if o.meterHeld then o
    else { o with corrections := movedCorrections p o.copy (meteredRate p m) o.corrections }
  o'.formed p

/-- A lead applied when the target rate calls for it (R58); a MEASURE segment takes none. -/
def Order.withLeadApplied (o : Order) (tun : Tuning) : Order :=
  if !o.copy.flags.measure && decide (tun.leadThreshold ≤ o.copy.rate) then
    { o with lead := some (tun.leadTime * 10) }
  else o

/-- The demands of a run-down with the scans left (R78). -/
def RunDown.demands (r : RunDown) : Bank Nat 8 :=
  Bank.each r.entry (fun d => if r.length = 0 then 0 else runDownLevel d r.timer r.length)

/-- The progress note of an order's current copy (R64, R170). -/
def progressNote (c : ChannelNo) (o : Order) : ReportBody :=
  .progress ⟨c, o.tag, o.copy.slot, o.copy.label, o.delivered⟩

/-- The note handed when the copy carries PROGRESS and its run flag is clear (R64). -/
def Engine.handProgress (e : Engine) (c : ChannelNo) (o : Order) : Engine :=
  if o.copy.flags.progress && !o.runFlag then e.hand (progressNote c o) else e

/-- An overrun with the carry-over folded in (R61, R83). -/
def Order.carryToOverrun (o : Order) : Order :=
  { o with carry := 0, notes := { o.notes with overrun := o.notes.overrun + o.carry } }

/-- Heat counted into the segment: what the remaining heat does not take is the carry-over (R61). -/
def Order.countSegment (o : Order) (h : Nat) : Order :=
  match o.remaining with
  | none => { o with delivered := o.delivered + h }
  | some r =>
    if r < h then { o with delivered := o.delivered + h, remaining := some 0, carry := h - r }
    else { o with delivered := o.delivered + h, remaining := some (r - h) }

end Sys2Proof.Machine
end

