-- ==== Sys2Proof/Machine/Orders.lean ====
section
/-! DEFINITION. How an order comes and goes: claim sets entering and leaving the claim list (R88 to R91), the end of an order with its record or reserve outcome (R81 to R84, R146, R160), reserve starts and pending starts (R54, R141 to R143), the run-down and its end (R69, R70, R78), ends imposed on a channel (R75).

An operation that starts grant scans takes the scan as `k`: a scan made by the event, or nothing when the step belongs to a scan already under way (R99). -/

namespace Sys2Proof.Machine

open Sys2Proof

/-! ## The claim list and the holder table -/

/-- The claim set of an order's current path (R88). -/
def claimSetOf (t : Tables) (c : ChannelNo) (o : Order) : ClaimSet :=
  let p := t.entry o.copy.path
  ⟨c, o.cls, o.copy.path, p.roles, p.valves, p.mode.circuit, none⟩

/-- A set behind every set of its class (R90). -/
def insertBack (l : List ClaimSet) (s : ClaimSet) : List ClaimSet :=
  l.takeWhile (fun x => decide (x.cls ≤ s.cls)) ++ s :: l.dropWhile (fun x => decide (x.cls ≤ s.cls))

/-- A set before every set of its class (R90). -/
def insertFront (l : List ClaimSet) (s : ClaimSet) : List ClaimSet :=
  l.takeWhile (fun x => decide (x.cls < s.cls)) ++ s :: l.dropWhile (fun x => decide (x.cls < s.cls))

/-- The claim list replaced. -/
def Engine.putClaims (e : Engine) (l : List ClaimSet) : Engine := { e with mar := { e.mar with claims := l } }

/-- The granted sets replaced. -/
def Engine.putGrants (e : Engine) (l : List ClaimSet) : Engine := { e with mar := { e.mar with grants := l } }

/-- A set submitted at the back of its class (R89). -/
def Engine.submitBack (e : Engine) (t : Tables) (c : ChannelNo) (o : Order) : Engine :=
  e.putClaims (insertBack e.mar.claims (claimSetOf t c o))

/-- A set submitted at the front of its class (R89). -/
def Engine.submitFront (e : Engine) (t : Tables) (c : ChannelNo) (o : Order) : Engine :=
  e.putClaims (insertFront e.mar.claims (claimSetOf t c o))

/-- A set withdrawn from the claim list (R91). -/
def Engine.withdraw (e : Engine) (c : ChannelNo) : Engine :=
  e.putClaims (e.mar.claims.filter (fun s => decide (s.channel ≠ c)))

/-- A channel removed from every role and valve and from the grant order (R94). -/
def Engine.release (e : Engine) (c : ChannelNo) : Engine :=
  e.putGrants (e.mar.grants.filter (fun s => decide (s.channel ≠ c)))

/-- Whether a channel holds a grant (R92). -/
def Engine.holds (e : Engine) (c : ChannelNo) : Bool := e.mar.grants.any (fun s => s.channel = c)

/-! ## The regulator's state at the end of its order (R160) -/

/-- The regulator's state when its order ends with a cause (R160). -/
def RegState.afterEnd (cause : Cause) (s : RegState) : RegState :=
  match s with
  | .disabled => .disabled
  | .active _ | .held | .suspended =>
    match cause with
    | .complete | .sinkFull | .sourceDepleted | .zoneTrip => .active .resting
    | .halted => .disabled
    | .preempted => .held
    | .valveFault | .meterLost | .zoneBlind | .protection | .starved => .suspended
    | .time | .programError => s

/-- The regulator takes its new state when an order of its own ends with a cause (R160). -/
def Engine.regulatorTakes (e : Engine) (owner : Owner) (g : Ending) : Engine :=
  match owner with
  | .regulator => e.putRegState (e.crg.state.afterEnd g.cause)
  | .host | .reserve _ => e

/-- The regulator's state at the notice of a reserve start on channel 5 (R161). -/
def RegState.afterNotice : RegState → RegState
  | .active _ => .held
  | .disabled => .disabled
  | .held => .held
  | .suspended => .suspended

/-- The notice of a reserve start (R142, R161). -/
def Engine.noticeReserve (e : Engine) (c : ChannelNo) : Engine :=
  if c = 5 then e.putRegState e.crg.state.afterNotice else e

/-! ## The end of an order -/

/-- Whether an order of an owner forms a completion record at a cause (R54, R81, R160). -/
def Owner.formsRecord (owner : Owner) (cause : Cause) : Bool :=
  match owner with
  | .host => true
  | .reserve _ => false
  | .regulator =>
    match cause with
    | .valveFault | .meterLost | .zoneBlind | .protection | .starved => true
    | .complete | .halted | .preempted | .time | .sourceDepleted | .sinkFull | .programError | .zoneTrip => false

/-- The completion record of an order that ends (R81); its figures stop at FFFFFFFE (R189). -/
def recordOf (c : ChannelNo) (o : Order) (g : Ending) : Record where
  channel := c
  tag := o.tag
  cls := o.cls
  ending := g
  lastSlot := o.copy.slot
  remaining := o.remaining
  delivered := recordCap o.delivered
  runTime := recordCap (o.orderTime / 10)
  notes := { o.notes with overrun := recordCap (o.notes.overrun + o.carry) }

/-- The order ends: its record is queued and the flag set, or its reserve outcome is handed, and the channel is IDLE (R84, R146, R160). -/
def Engine.closeOrder (e : Engine) (c : ChannelNo) (o : Order) (g : Ending) : Engine :=
  match o.owner with
  | .reserve z => ((e.putOrder c none).setOutcome z (.ended g.cause o.delivered)).handZone z
  | .host | .regulator =>
    if o.owner.formsRecord g.cause then
      (e.hand (.completion (recordOf c o g))).putChannel c ⟨none, true⟩
    else e.putOrder c none

/-! ## Starts -/

/-- The context of an order that is taken (R53, R54, R158). -/
def newOrder (owner : Owner) (tag : Nat) (cls : Fin 4) (first : Option SlotNo) (x : Copy) (limit : Nat) : Order where
  phase := .waiting
  owner := owner
  tag := tag
  cls := cls
  firstSlot := first
  copy := x
  previous := none
  next := none
  prefetchMade := false
  failure := none
  remaining := x.quantity.map (· * 10)
  carry := 0
  delivered := 0
  segTime := 0
  runFlag := false
  orderTime := 0
  waitTimer := 0
  waitLimit := limit
  demands := noDemands
  corrections := noCorrections
  lead := none
  meterHeld := false
  notes := ⟨false, false, 0⟩

/-- An order enters WAITING: its set at the back of its class, the grant scan, then the prefetch when it is due (R53). -/
def Engine.takeOrder (e : Engine) (t : Tables) (k : Engine → Engine) (c : ChannelNo) (o : Order) : Engine :=
  (k ((e.putOrder c (some o)).submitBack t c o)).prefetch t c

/-- A reserve start on an IDLE channel (R54, R141): the regulator has its notice and the outcome is entered, whether or not the first segment fails (R161); no report is handed yet. -/
def Engine.startReserve (e : Engine) (t : Tables) (k : Engine → Engine) (z : Zone) (r : Reserve) : Engine :=
  match e.fetchFirst t (.reserve z) 0 r.slot with
  | .error g => (e.noticeReserve r.channel).setOutcome z (.ended g.cause 0)
  | .ok x =>
    ((e.noticeReserve r.channel).setOutcome z .started).takeOrder t k r.channel
      (newOrder (.reserve z) 0 0 (some r.slot) x 0)

/-- One zone of R143: when it is pending for the IDLE channel, its flag is cleared and its start made, with its report. -/
def Engine.serveZone (t : Tables) (k : Engine → Engine) (c : ChannelNo) (e : Engine) (z : Zone) : Engine :=
  match (t.zone z).reserve with
  | none => e
  | some r =>
    if r.channel = c ∧ (e.zone z).pending ∧ (e.order c).isNone then
      ((e.setPending z false).startReserve t k z r).handZone z
    else e

/-- The pending zones of a channel served, lowest first, while it is IDLE and the part READY (R143). -/
def Engine.servePending (e : Engine) (t : Tables) (k : Engine → Engine) (c : ChannelNo) : Engine :=
  match e.part with
  | .ready => Zone.all.foldl (Engine.serveZone t k c) e
  | .starting | .parked | .waking => e

/-- The order ends and the channel, now IDLE, serves any zone pending for it (R84, R143, R146). -/
def Engine.finish (e : Engine) (t : Tables) (k : Engine → Engine) (c : ChannelNo) (o : Order) (g : Ending) : Engine :=
  (e.closeOrder c o g).servePending t k c

/-! ## The run-down -/

/-- The successor becomes current at the end of a transition run-down (R69); the meter-held flag is cleared where the meter differs (R76). -/
def Order.resumed (o : Order) (t : Tables) (x : Copy) : Order :=
  { o with
    phase := .waiting
    copy := x
    previous := o.copy.slot
    next := none
    prefetchMade := false
    failure := none
    remaining := x.quantity.map (· * 10)
    segTime := 0
    runFlag := false
    waitTimer := 0
    demands := noDemands
    corrections := noCorrections
    lead := none
    meterHeld := o.meterHeld && decide ((t.entry o.copy.path).meter = (t.entry x.path).meter) }

/-- A transition run-down has ended and its grants are gone: the setup check afresh, then the new set at the front of its class, or the end of the order (R69, R70). -/
def Engine.resume (e : Engine) (t : Tables) (k : Engine → Engine) (c : ChannelNo) (o : Order) : Engine :=
  match o.next with
  | none => e
  | some x =>
    match e.setup t o.owner x with
    | some g => (e.regulatorTakes o.owner g).finish t k c o g
    | none =>
      let o' := o.resumed t x
      (k ((e.putOrder c (some o')).submitFront t c o')).prefetch t c

/-- What follows a run-down that has ended, by its purpose (R69, R74, R78). -/
def Engine.afterRunDown (e : Engine) (t : Tables) (k : Engine → Engine) (c : ChannelNo) (o : Order) (r : RunDown) : Engine :=
  match r.purpose with
  | .endWith g => e.finish t k c o g
  | .transition => e.resume t k c o

/-- The run-down of a channel ends: its grants are released with a grant scan, then its purpose is carried out (R78, R94). A release that finds no grant starts no scan. -/
def Engine.runDownEnd (e : Engine) (t : Tables) (k : Engine → Engine) (c : ChannelNo) : Engine :=
  match e.order c with
  | none => e
  | some o =>
    match o.phase with
    | .ending r =>
      let e' := if e.holds c then k (e.release c) else e
      e'.afterRunDown t k c o r
    | .waiting | .setting | .running => e

/-- An order in ENDING with purpose END: the pending failure dropped, the carry-over in the overrun (R66, R83). -/
def Order.endingFor (o : Order) (t : Tables) (g : Ending) (stopped : Bool) : Order :=
  let n := (t.entry o.copy.path).runDown * 10
  { o.carryToOverrun with
    phase := .ending ⟨.endWith g, n, n, o.demands, stopped⟩
    failure := none
    lead := none }

/-- An order in ENDING with purpose TRANSITION (R69). -/
def Order.endingToNext (o : Order) (t : Tables) : Order :=
  let n := (t.entry o.copy.path).runDown * 10
  { o with phase := .ending ⟨.transition, n, n, o.demands, false⟩, lead := none }

/-- The run-down ends at the moment of entry when the path's run-down time is 0 (R78). -/
def Engine.endIfImmediate (e : Engine) (t : Tables) (k : Engine → Engine) (c : ChannelNo) (p : PathNo) : Engine :=
  if (t.entry p).runDown = 0 then e.runDownEnd t k c else e

/-- A channel in SETTING or RUNNING enters ENDING with purpose END and a cause (R63, R75, R78). -/
def Engine.enterEnd (e : Engine) (t : Tables) (k : Engine → Engine) (c : ChannelNo) (o : Order) (g : Ending)
    (stopped : Bool) : Engine :=
  ((e.putOrder c (some (o.endingFor t g stopped))).regulatorTakes o.owner g).endIfImmediate t k c o.copy.path

/-- A channel enters ENDING with purpose TRANSITION (R69, R162). -/
def Engine.enterTransition (e : Engine) (t : Tables) (k : Engine → Engine) (c : ChannelNo) (o : Order) : Engine :=
  (e.putOrder c (some (o.endingToNext t))).endIfImmediate t k c o.copy.path

/-- The order of a WAITING channel ends at once: the set is withdrawn, the order closed, a grant scan follows, and the IDLE channel serves any pending zone (R72, R75, R79, R91). -/
def Engine.endWaiting (e : Engine) (t : Tables) (k : Engine → Engine) (c : ChannelNo) (o : Order) (g : Ending) : Engine :=
  (k (((e.withdraw c).regulatorTakes o.owner g).closeOrder c o g)).servePending t k c

/-- An end imposed on a channel with a stated cause, by the channel's state (R75, R79, R156, R160). -/
def Engine.imposeEnd (e : Engine) (t : Tables) (k : Engine → Engine) (c : ChannelNo) (g : Ending) : Engine :=
  match e.order c with
  | none => e
  | some o =>
    match o.phase with
    | .waiting => e.endWaiting t k c o g
    | .setting | .running => e.enterEnd t k c o g false
    | .ending r =>
      match r.purpose with
      | .endWith _ => e
      | .transition =>
        (e.putOrder c (some { o with phase := .ending { r with purpose := .endWith g }, failure := none })).regulatorTakes
          o.owner g

/-! ## Revocation -/

/-- An order whose grants are revoked (R73). -/
def Order.revoked (o : Order) : Order :=
  { o with phase := .waiting, demands := noDemands, lead := none, waitTimer := 0 }

/-- The grant of a channel revoked within a scan or by an output fault: back to WAITING at the front of its class, or the run-down ended at once (R73, R74). -/
def Engine.revoke (e : Engine) (t : Tables) (c : ChannelNo) : Engine :=
  let e' := e.release c
  match e.order c with
  | none => e'
  | some o =>
    match o.phase with
    | .waiting => e'
    | .setting | .running => (e'.putOrder c (some o.revoked)).submitFront t c o
    | .ending r => e'.afterRunDown t id c o r

end Sys2Proof.Machine
end

