-- ==== Sys2Proof/Machine/Arbiter.lean ====
section
/-! DEFINITION. The mover arbiter: grantability (R95 to R98), the grant with its valve commands (R93, R106), the mode change (R102, R103), preemption (R107 to R109), the grant scan (R99, R100), revocation on an output fault (R110). -/

namespace Sys2Proof.Machine

open Sys2Proof

/-! ## Grantability -/

/-- The share a granted set holds on a role; 0 when it does not name it. -/
def ClaimSet.shareOf (s : ClaimSet) (r : Role) : Nat :=
  match s.roles.find? (fun x => x.1 = r) with
  | some x => x.2
  | none => 0

/-- Whether a set names a role. -/
def ClaimSet.names (s : ClaimSet) (r : Role) : Bool := s.roles.any (fun x => x.1 = r)

/-- Whether a set names a valve. -/
def ClaimSet.namesValve (s : ClaimSet) (v : ValveNo) : Bool := s.valves.any (fun x => x.1 = v)

/-- The holders of a role among granted sets (R92). -/
def holdersOf (grants : List ClaimSet) (r : Role) : List ClaimSet := grants.filter (fun g => g.names r)

/-- The holders of a valve among granted sets (R92). -/
def valveHoldersOf (grants : List ClaimSet) (v : ValveNo) : List ClaimSet := grants.filter (fun g => g.namesValve v)

/-- The sum of shares held on a role (R92, R113). -/
def sharesOn (grants : List ClaimSet) (r : Role) : Nat := ((holdersOf grants r).map (fun g => g.shareOf r)).sum

/-- Whether a set claims a valve at a position other than `pos`. -/
def ClaimSet.claimsOther (s : ClaimSet) (v : ValveNo) (pos : Nat) : Bool :=
  s.valves.any (fun x => decide (x.1 = v ∧ x.2 ≠ pos))

/-- The share bound of R96 and R97. -/
def shareUnmet (grants : List ClaimSet) (r : Role) (share : Nat) : Option WaitReason :=
  if sharesOn grants r + share ≤ 100 then none else some (.shareFull r)

/-- The COMPRESSOR entry judged (R97). -/
def compressorUnmet (comp : Compressor) (grants : List ClaimSet) (mode : Option Circuit) (share : Nat) :
    Option WaitReason :=
  match comp.condition with
  | .equalizing _ _ => some .compressorEqualizing
  | .steady =>
    if (holdersOf grants .compressor).isEmpty then
      if comp.mode = none ∨ comp.mode = mode then none else some .compressorMode
    else if comp.mode = mode then shareUnmet grants .compressor share
    else some .compressorMode

/-- A role entry judged: why it is not grantable, if it is not (R95 to R97). -/
def Engine.roleUnmet (e : Engine) (grants : List ClaimSet) (mode : Option Circuit) (r : Role) (share : Nat) :
    Option WaitReason :=
  match (e.output (e.mapped r)).state with
  | .faulted | .testing => some (.outputUnavailable r)
  | .inService =>
    match r with
    | .pumpBatt | .pumpDrive | .pumpCabin | .pumpAux | .fan => none
    | .heater => shareUnmet grants .heater share
    | .chiller => if (holdersOf grants .chiller).isEmpty then none else some .chillerHeld
    | .compressor => compressorUnmet e.mar.comp grants mode share

/-- A valve entry judged (R98). -/
def Engine.valveUnmet (e : Engine) (grants : List ClaimSet) (v : ValveNo) (pos : Nat) : Option WaitReason :=
  match (e.valve v).state with
  | .faulted => some (.valveFaulted v)
  | .atPosition | .travelling =>
    if grants.any (fun g => g.claimsOther v pos) then some (.valvePosition v) else none

/-- The first unmet condition of a set: roles in role-list order, then valves in valve-list order (R95, R100). -/
def Engine.unmet (e : Engine) (grants : List ClaimSet) (s : ClaimSet) : Option WaitReason :=
  match s.roles.findSome? (fun x => e.roleUnmet grants s.mode x.1 x.2) with
  | some w => some w
  | none => s.valves.findSome? (fun x => e.valveUnmet grants x.1 x.2)

/-- Whether a set waits only on a mode change (R102). -/
def Engine.onlyMode (e : Engine) (grants : List ClaimSet) (s : ClaimSet) : Bool :=
  s.names .compressor
  && (holdersOf grants .compressor).isEmpty
  && s.roles.all (fun x =>
    if x.1 = .compressor then decide (e.roleUnmet grants s.mode x.1 x.2 = some .compressorMode)
    else (e.roleUnmet grants s.mode x.1 x.2).isNone)
  && s.valves.all (fun x => (e.valveUnmet grants x.1 x.2).isNone)

/-- Whether a set is grantable or waits only on a mode change (R108, R109). -/
def Engine.ready (e : Engine) (grants : List ClaimSet) (s : ClaimSet) : Bool :=
  (e.unmet grants s).isNone || e.onlyMode grants s

/-! ## Grants -/

/-- A valve commanded to a position (R119): nothing when it stands there already. -/
def ValveRec.command (v : ValveRec) (timeout pos : Nat) : ValveRec :=
  if v.commanded = some pos ∧ v.state = .atPosition then v
  else { v with state := .travelling, commanded := some pos, travelTimer := timeout * 10, driftCount := 0 }

/-- The valves of a granted set that had no holder before are commanded (R93, R119). -/
def Engine.commandValves (e : Engine) (t : Tables) (before : List ClaimSet) (s : ClaimSet) : Engine :=
  s.valves.foldl (fun e x =>
    if (valveHoldersOf before x.1).isEmpty then
      e.putValve x.1 ((e.valve x.1).command t.tuning.valveTimeout x.2)
    else e) e

/-- The compressor's mode after a grant: an UNSET mode takes the set's (R93, R106). -/
def Compressor.taken (comp : Compressor) (s : ClaimSet) : Compressor :=
  if s.names .compressor ∧ comp.mode = none then { comp with mode := s.mode } else comp

/-- The channel of a granted set enters SETTING with its starting levels (R55, R56). -/
def Order.granted (o : Order) (t : Tables) : Order :=
  { o with phase := .setting, demands := startDemands (t.entry o.copy.path) o.copy }

/-- The output stage sets the compressor's circuit to a mode it is given; UNSET leaves it as it stands (R87, R117). -/
def Engine.setCircuit (e : Engine) (m : Option Circuit) : Engine :=
  { e with ost := { e.ost with circuit := m.getD e.ost.circuit } }

/-- The grant of a set (R93). -/
def Engine.grant (e : Engine) (t : Tables) (s : ClaimSet) : Engine :=
  let e' := { e with
    mar := { claims := e.mar.claims.filter (fun x => decide (x.channel ≠ s.channel))
             grants := e.mar.grants ++ [{ s with reason := none }]
             comp := e.mar.comp.taken s } }
  ((e'.setCircuit e'.mar.comp.mode).mapOrder s.channel (fun o => o.granted t)).commandValves t e.mar.grants s

/-- The wait reason of a set in the list replaced (R100). -/
def Engine.setReason (e : Engine) (c : ChannelNo) (w : WaitReason) : Engine :=
  e.putClaims (e.mar.claims.map (fun s => if s.channel = c then { s with reason := some w } else s))

/-- A mode change begins toward a set's mode (R103). -/
def Engine.beginModeChange (e : Engine) (t : Tables) (s : ClaimSet) : Engine :=
  match s.mode with
  | none => e
  | some m =>
    let e' := { e with mar := { e.mar with
      comp := { e.mar.comp with condition := .equalizing m (t.tuning.equalizeTime * 10) } } }
    e'.setReason s.channel .compressorEqualizing

/-! ## Preemption -/

/-- Whether a role entry is not grantable because of its holders, so that its holders conflict (R107). -/
def Engine.roleConflicts (e : Engine) (grants : List ClaimSet) (mode : Option Circuit) (r : Role) (share : Nat) : Bool :=
  match e.roleUnmet grants mode r share with
  | some (.shareFull _) | some .chillerHeld => true
  | some .compressorMode => !(holdersOf grants .compressor).isEmpty
  | _ => false

/-- Whether a valve entry is not grantable because of its holders (R107). -/
def Engine.valveConflicts (e : Engine) (grants : List ClaimSet) (v : ValveNo) (pos : Nat) : Bool :=
  match e.valveUnmet grants v pos with
  | some (.valvePosition _) => true
  | _ => false

/-- Whether a granted set is a conflicting holder of a set (R107). -/
def Engine.conflicts (e : Engine) (grants : List ClaimSet) (s g : ClaimSet) : Bool :=
  s.roles.any (fun x => g.names x.1 && e.roleConflicts grants s.mode x.1 x.2)
  || s.valves.any (fun x => g.namesValve x.1 && e.valveConflicts grants x.1 x.2)

/-- Whether a granted set is a revocable conflicting holder (R107). -/
def Engine.revocable (e : Engine) (grants : List ClaimSet) (s g : ClaimSet) : Bool :=
  e.conflicts grants s g && decide (g.cls ≠ 0)

/-- Whether revocation would succeed (R108). -/
def Engine.preemptionSucceeds (e : Engine) (s : ClaimSet) : Bool :=
  e.ready (e.mar.grants.filter (fun g => !e.revocable e.mar.grants s g)) s

/-- The next holder to revoke: the highest class number, and within it the latest grant (R109). -/
def Engine.victim (e : Engine) (s : ClaimSet) : Option ClaimSet :=
  let l := e.mar.grants.reverse.filter (fun g => e.revocable e.mar.grants s g)
  match l.find? (fun g => g.cls = 3) with
  | some g => some g
  | none =>
    match l.find? (fun g => g.cls = 2) with
    | some g => some g
    | none => l.find? (fun g => g.cls = 1)

/-- Holders revoked one at a time until the set is grantable or waits only on a mode change (R109). -/
def Engine.preempt (t : Tables) (s : ClaimSet) : Nat → Engine → Engine
  | 0, e => e
  | n + 1, e =>
    if e.ready e.mar.grants s then e
    else
      match e.victim s with
      | none => e
      | some g => Engine.preempt t s n (e.revoke t g.channel)

/-! ## The grant scan -/

/-- The first set left waiting in the scan that names a role or valve of this one (R100). -/
def blockerOf (left : List ClaimSet) (s : ClaimSet) : Option ChannelNo :=
  (left.find? (fun l =>
    s.roles.any (fun x => l.names x.1) || s.valves.any (fun x => l.namesValve x.1))).map (·.channel)

/-- A set that is not blocked is granted, begins a mode change, or waits (R100, steps 2, 4 and 5). -/
def Engine.settle (e : Engine) (t : Tables) (s : ClaimSet) : Engine :=
  match e.unmet e.mar.grants s with
  | none => e.grant t s
  | some w => if e.onlyMode e.mar.grants s then e.beginModeChange t s else e.setReason s.channel w

/-- One set of the walk judged (R100). -/
def Engine.judgeSet (e : Engine) (t : Tables) (left : List ClaimSet) (s : ClaimSet) : Engine :=
  match blockerOf left s with
  | some b => e.setReason s.channel (.blocked b)
  | none =>
    if s.cls = 0 ∧ (e.unmet e.mar.grants s).isSome ∧ e.preemptionSucceeds s then
      (Engine.preempt t s 6 e).settle t s
    else e.settle t s

/-- Whether a channel's set stands in the claim list. -/
def Engine.inList (e : Engine) (c : ChannelNo) : Bool := e.mar.claims.any (fun s => s.channel = c)

/-- The walk through the claim list: the first set not yet judged, each channel once (R100, R109). -/
def Engine.walk (t : Tables) : Nat → List ChannelNo → List ClaimSet → Engine → Engine
  | 0, _, _, e => e
  | n + 1, judged, left, e =>
    match e.mar.claims.find? (fun s => !judged.contains s.channel) with
    | none => e
    | some s =>
      let e' := e.judgeSet t left s
      Engine.walk t n (s.channel :: judged) (if e'.inList s.channel then left ++ [s] else left) e'

/-- The grant scan (R99, R100). -/
def Engine.grantScan (t : Tables) (e : Engine) : Engine := Engine.walk t 6 [] [] e

/-- Every holder of a role revoked, the latest in the grant order first, then a grant scan (R110). -/
def Engine.revokeHolders (e : Engine) (t : Tables) (r : Role) : Engine :=
  Engine.grantScan t
    ((holdersOf e.mar.grants r).reverse.foldl (fun e g => e.revoke t g.channel) e)

/-- An equalize ends: the target mode, STEADY, the circuit set, and a grant scan (R105, R117). -/
def Engine.equalizeEnd (e : Engine) (t : Tables) : Engine :=
  match e.mar.comp.condition with
  | .steady => e
  | .equalizing m _ =>
    Engine.grantScan t ({ e with mar := { e.mar with comp := ⟨some m, .steady⟩ } }.setCircuit (some m))

/-- The equalize timer falls by some tenths of a second (R105). -/
def Engine.equalizeFall (e : Engine) (tenths : Nat) : Engine :=
  match e.mar.comp.condition with
  | .steady => e
  | .equalizing m n =>
    { e with mar := { e.mar with comp := { e.mar.comp with condition := .equalizing m (n - tenths) } } }

end Sys2Proof.Machine
end

