-- ==== Sys2Proof/Machine/Channels.lean ====
section
/-! DEFINITION. What a channel does at a scan end, by its state (R49): counting (R60, R61), the segment judgement (R62, R63), transitions (R67 to R70), regulation (R57), the run-down (R78), the wait (R72), the entry to RUNNING (R56), and what the meters report to it (R76, R77). -/

namespace Sys2Proof.Machine

open Sys2Proof

/-- What a scan end hands to the channels: each meter's scan heat (none in INVALID, R16) and whether what falls due is taken within the step (log 3). -/
structure ScanFigures where
  heat : Bank (Option Int) 4
  due : DueMode
  deriving DecidableEq, Repr

/-- The path entry of an order's current copy. -/
def Order.path (o : Order) (t : Tables) : PathEntry := t.entry o.copy.path

/-- The heat an order counts at a scan end, in its path's sense (R60). -/
def ScanFigures.counted (f : ScanFigures) (p : PathEntry) : Nat :=
  match Bank.nth f.heat p.meter.idx with
  | none => 0
  | some h => inSense p.sense h

/-! ## What the meters report (R76, R77) -/

/-- The report a meter hands its channels at a judgement (R17 to R20). -/
inductive MeterReport | none | held | true_ | expiry
  deriving DecidableEq, Repr

/-- A hold report as an order takes it: the flag, and ESTIMATED noted (R76). -/
def Order.held (o : Order) : Order :=
  { o with meterHeld := true, notes := { o.notes with estimated := true } }

/-- Counting stopped in a run-down (R77). -/
def Order.stopCounting (o : Order) : Order :=
  match o.phase with
  | .ending r => { o with phase := .ending { r with countingStopped := true } }
  | .waiting | .setting | .running => o

/-- One channel takes a report of its path's meter (R76, R77). -/
def Engine.channelReport (t : Tables) (k : Engine → Engine) (m : Meter) (x : MeterReport) (e : Engine)
    (c : ChannelNo) : Engine :=
  match e.order c with
  | none => e
  | some o =>
    if (o.path t).meter = m then
      match o.phase, x with
      | .running, .expiry => e.enterEnd t k c o (.meterLost m) true
      | .ending _, .expiry => e.putOrder c (some o.stopCounting)
      | .running, .held | .ending _, .held => e.putOrder c (some o.held)
      | .running, .true_ | .ending _, .true_ => e.putOrder c (some { o with meterHeld := false })
      | _, _ => e
    else e

/-- A meter's report handed to every channel (R76, R77). DESIGN CHOICE (log 35): in channel-number order. -/
def Engine.meterReport (e : Engine) (t : Tables) (k : Engine → Engine) (m : Meter) (x : MeterReport) : Engine :=
  allChannels.foldl (Engine.channelReport t k m x) e

/-! ## Entry to RUNNING (R56) -/

/-- The first three steps of the entry to RUNNING: corrections 0, the lead, the run flag (R56). -/
def Order.entered (o : Order) (t : Tables) : Order :=
  { ({ o with phase := .running, corrections := noCorrections, lead := none }).withLeadApplied t.tuning with
    runFlag := true }

/-- A channel in SETTING enters RUNNING (R56): the note, then the meter judged, then demands formed. -/
def Engine.enterRunning (e : Engine) (t : Tables) (k : Engine → Engine) (c : ChannelNo) (o : Order) : Engine :=
  let p := o.path t
  let o1 := o.entered t
  let e1 := e.handProgress c o
  match (e.meter p.meter).state with
  | .invalid => (e1.putOrder c (some o1)).enterEnd t k c o1 (.meterLost p.meter) false
  | .holding | .handOver => e1.putOrder c (some (o1.held.formed p))
  | .valid => e1.putOrder c (some (({ o1 with meterHeld := false }).formed p))

/-- Whether every valve of a channel's path stands AT-POSITION at the claimed position (R56). -/
def Engine.valvesStand (e : Engine) (p : PathEntry) : Bool :=
  p.valves.all (fun x =>
    decide ((e.valve x.1).state = .atPosition) && decide ((e.valve x.1).commanded = some x.2))

/-! ## The chain within one scan end -/

/-- How demands are formed at a scan end after the segment judgement: as R57 gives, or left until the next scan end after a CONTINUE between a MEASURE segment and one without (R59). -/
inductive Forming | regulate | keep
  deriving DecidableEq, Repr

/-- What a segment's end or its absence leaves the channel to do at this scan end. -/
inductive Course
  | stay (o : Order) (f : Forming)
  | endFor (o : Order) (g : Ending)
  | transition (o : Order)
  deriving DecidableEq, Repr

/-- The kind of a segment end (R62). -/
inductive SegmentEnd
  | complete
  | short (c : Cause)
  deriving DecidableEq, Repr

/-- The successor becomes current without release (R67, R68): its remaining heat, a fresh segment run time, a clear run flag. -/
def Order.became (o : Order) (x : Copy) (remaining : Option Nat) : Order :=
  { o with
    copy := x
    previous := o.copy.slot
    next := none
    prefetchMade := false
    failure := none
    remaining := remaining
    segTime := 0
    runFlag := false
    corrections := if o.copy.flags.measure || x.flags.measure then noCorrections else o.corrections
    lead := if x.flags.measure then none else o.lead }

/-- The CONTINUE successor's remaining heat and the carry-over left (R61). -/
def Order.carriedInto (o : Order) (x : Copy) : Option Nat × Nat :=
  match x.quantity with
  | none => (none, o.carry)
  | some q => if q * 10 ≤ o.carry then (some 0, o.carry - q * 10) else (some (q * 10 - o.carry), 0)

/-- A CONTINUE successor as current copy (R67), with the lead that a changed target calls for (R58). -/
def Order.continued (o : Order) (t : Tables) (x : Copy) : Order :=
  let o1 := { o.became x (o.carriedInto x).1 with carry := (o.carriedInto x).2 }
  if o.copy.rate ≠ x.rate then o1.withLeadApplied t.tuning else o1

/-- A same-path NEXT successor as current copy (R68). -/
def Order.nexted (o : Order) (t : Tables) (x : Copy) : Order :=
  (o.became x (x.quantity.map (· * 10))).withLeadApplied t.tuning

/-- The forming that a CONTINUE leaves: put off where MEASURE changes (R59). -/
def formingAfter (before : Forming) (o x : Copy) : Forming :=
  if o.flags.measure = x.flags.measure then before else .keep

/-- The chain from a segment end onward, within one scan end (R61, R63, R67 to R70). Each pass through a successor that completes on its carry-over uses up at least one kilojoule of it. -/
def Engine.chainOn (t : Tables) (c : ChannelNo) :
    Nat → SegmentEnd → Forming → Order → Engine → Engine × Course
  | 0, _, f, o, e => (e, .stay o f)
  | n + 1, x, f, o, e =>
    match x with
    | .short cause =>
      if o.copy.flags.shortOk then
        Engine.chainOn t c n .complete f { o with notes := { o.notes with shortSeen := true } } e
      else (e, .endFor o (.plain cause))
    | .complete =>
      if o.copy.chains then
        let o1 := e.withSuccessor t (if o.copy.flags.next then o.carryToOverrun else o)
        if o1.failure.any Ending.standsAtTransition then
          (e, .endFor o1 (o1.failure.getD (.plain .complete)))
        else
          match o1.next with
          | none => (e, .endFor o1 (.plain .complete))
          | some y =>
            if o1.copy.flags.next ∧ y.path ≠ o1.copy.path then (e, .transition o1)
            else
              match e.setup t o1.owner y with
              | some g => (e, .endFor o1 g)
              | none =>
                let o2 := if o1.copy.flags.next then o1.nexted t y else o1.continued t y
                let f' := if o1.copy.flags.next then f else formingAfter f o1.copy y
                let e' := e.handProgress c o2
                let o3 := { o2 with runFlag := true }
                if o3.remaining = some 0 then Engine.chainOn t c n .complete f' o3 e'
                else (e', .stay (e'.prefetchOrder t o3) f')
      else (e, .endFor o (.plain .complete))

/-- The passes a chain can need at one scan end: one for the segment itself, one for a tolerated short end, one for each kilojoule carried (R61). -/
def chainFuel (o : Order) : Nat := o.carry + 3

/-! ## A channel in RUNNING -/

/-- The segment's end at this scan end (R62): complete first, then TIME, SOURCE-DEPLETED, SINK-FULL. -/
def Engine.segmentEnd (e : Engine) (p : PathEntry) (o : Order) : Option SegmentEnd :=
  if o.remaining = some 0 then some .complete
  else if o.copy.timeLimit ≠ 0 ∧ o.copy.timeLimit * 10 ≤ o.segTime then some (.short .time)
  else if (e.zone p.source).depleted then some (.short .sourceDepleted)
  else if (e.zone p.sink).full then some (.short .sinkFull)
  else none

/-- A RUNNING order's timers and count at a scan end: run times, heat, the lead (R58, R60, R62). -/
def Order.ranScan (o : Order) (h : Nat) (due : DueMode) : Order :=
  let o1 := { o with orderTime := o.orderTime + 1, segTime := o.segTime + 1 }
  let o2 := o1.countSegment h
  { o2 with lead :=
      match due, o2.lead with
      | .within, some 1 => none
      | _, l => l.map (· - 1) }

/-- What the channel does after its segment judgement (R57, R63, R69). -/
def Engine.takeCourse (e : Engine) (t : Tables) (k : Engine → Engine) (c : ChannelNo) (m : MeterRec) (x : Course) : Engine :=
  match x with
  | .stay o .regulate => e.putOrder c (some (o.regulated (o.path t) m))
  | .stay o .keep => e.putOrder c (some o)
  | .endFor o g => (e.putOrder c (some o)).enterEnd t k c o g false
  | .transition o => (e.putOrder c (some o)).enterTransition t k c o

/-- A channel in RUNNING at a scan end: count, judge, and regulate (R57, R60, R62, R65). A TIME end waits for its own row when rows are separate. -/
def Engine.runningWork (e : Engine) (t : Tables) (k : Engine → Engine) (f : ScanFigures) (c : ChannelNo) (o : Order) : Engine :=
  let p := o.path t
  let m := e.meter p.meter
  let o1 := o.ranScan (f.counted p) f.due
  match e.segmentEnd p o1 with
  | none => e.takeCourse t k c m (.stay (e.prefetchOrder t o1) .regulate)
  | some x =>
    if x = .short .time ∧ f.due = .separate then e.putOrder c (some o1)
    else
      let r := Engine.chainOn t c (chainFuel o1) x .regulate o1 e
      r.1.takeCourse t k c m r.2

/-! ## The other states -/

/-- An order's wait at a scan end (R72). -/
def Order.waited (o : Order) : Order := { o with orderTime := o.orderTime + 1, waitTimer := o.waitTimer + 1 }

/-- Whether the wait limit has been reached (R72). -/
def Order.waitOver (o : Order) : Bool := decide (o.waitLimit ≠ 0 ∧ o.waitLimit * 10 ≤ o.waitTimer)

/-- A channel in WAITING at a scan end (R72). -/
def Engine.waitingWork (e : Engine) (t : Tables) (k : Engine → Engine) (due : DueMode) (c : ChannelNo) (o : Order) : Engine :=
  let o1 := o.waited
  let e1 := e.putOrder c (some o1)
  if o1.waitOver ∧ due = .within then e1.endWaiting t k c o1 (.plain .starved) else e1

/-- A channel in SETTING at a scan end: RUNNING when its valves stand, otherwise its starting levels (R56). -/
def Engine.settingWork (e : Engine) (t : Tables) (k : Engine → Engine) (c : ChannelNo) (o : Order) : Engine :=
  let p := o.path t
  let o1 := { o with orderTime := o.orderTime + 1 }
  if e.valvesStand p then (e.putOrder c (some o1)).enterRunning t k c o1
  else e.putOrder c (some { o1 with demands := startDemands p o1.copy })

/-- An order in ENDING at a scan end: heat into the order only, the timer, the falling demands (R60, R77, R78). -/
def Order.ranDown (o : Order) (r : RunDown) (h : Nat) : Order :=
  let r1 := { r with timer := r.timer - 1 }
  { o with
    phase := .ending r1
    orderTime := o.orderTime + 1
    delivered := if r.countingStopped then o.delivered else o.delivered + h
    demands := r1.demands }

/-- A channel in ENDING at a scan end (R78). -/
def Engine.endingWork (e : Engine) (t : Tables) (k : Engine → Engine) (f : ScanFigures) (c : ChannelNo) (o : Order) (r : RunDown) : Engine :=
  let e1 := e.putOrder c (some (o.ranDown r (f.counted (o.path t))))
  if r.timer ≤ 1 ∧ f.due = .within then e1.runDownEnd t k c else e1

/-- A channel's own work at a scan end (R49), for the order it had when the scan end began: an order that has come since does nothing yet, and one whose state has changed since, save into ENDING, only ages. DESIGN CHOICE (log 23): the order counts as the one it had by its owner and its state alone, so an order replaced meanwhile by another of the same owner in the same state, or one revoked and granted again, is worked as if it had stayed. -/
def Engine.channelWork (e : Engine) (t : Tables) (k : Engine → Engine) (f : ScanFigures) (c : ChannelNo)
    (before : Option Order) : Engine :=
  match before, e.order c with
  | some b, some o =>
    if b.owner ≠ o.owner then e
    else
      match b.phase, o.phase with
      | .waiting, .waiting => e.waitingWork t k f.due c o
      | .setting, .setting => e.settingWork t k c o
      | .running, .running => e.runningWork t k f c o
      | _, .ending r => e.endingWork t k f c o r
      | _, _ => e.putOrder c (some { o with orderTime := o.orderTime + 1 })
  | _, _ => e

/-! ## The rows of their own -/

/-- SEGMENT_TIME_LIMIT: a RUNNING channel whose segment has reached its limit and is not complete ends it TIME (R62, R63, R71). -/
def Engine.timeLimitReached (e : Engine) (t : Tables) (k : Engine → Engine) (c : ChannelNo) : Engine :=
  match e.order c with
  | none => e
  | some o =>
    if o.phase = .running ∧ o.remaining ≠ some 0 ∧ o.copy.timeLimit ≠ 0 ∧ o.copy.timeLimit * 10 ≤ o.segTime then
      let r := Engine.chainOn t c (chainFuel o) (.short .time) .regulate o e
      r.1.takeCourse t k c (e.meter (o.path t).meter) r.2
    else e

/-- LEAD_END: a lead whose timer has reached 0 ends, and the demands no longer carry it (R58). -/
def Engine.leadEnds (e : Engine) (t : Tables) (c : ChannelNo) : Engine :=
  match e.order c with
  | none => e
  | some o =>
    if o.phase = .running ∧ o.lead = some 0 then
      e.putOrder c (some (({ o with lead := none }).formed (o.path t)))
    else e

/-- WAIT_LIMIT_REACHED: a WAITING channel whose timer has reached its limit ends STARVED (R72). -/
def Engine.waitLimitReached (e : Engine) (t : Tables) (k : Engine → Engine) (c : ChannelNo) : Engine :=
  match e.order c with
  | none => e
  | some o => if o.phase = .waiting ∧ o.waitOver then e.endWaiting t k c o (.plain .starved) else e

/-- RUN_DOWN_END: a run-down whose timer has reached 0 ends (R78). -/
def Engine.runDownReached (e : Engine) (t : Tables) (k : Engine → Engine) (c : ChannelNo) : Engine :=
  match e.order c with
  | none => e
  | some o =>
    match o.phase with
    | .ending r => if r.timer = 0 then e.runDownEnd t k c else e
    | .waiting | .setting | .running => e

end Sys2Proof.Machine
end

