-- ==== Sys2Proof/Machine/Zones.lean ====
section
/-! DEFINITION. The zone supervisor: verdicts (R138), the judgement of a zone (R137), the ending of offending orders (R139), reserve starts that fall due (R141, R142), the return to NORMAL (R144), the re-judging of a pending start (R134). -/

namespace Sys2Proof.Machine

open Sys2Proof

/-! ## Verdicts -/

/-- One zone's verdicts formed anew from its reading (R138). -/
def Engine.formVerdicts (t : Tables) (readings : Bank Reading 6) (e : Engine) (z : Zone) : Engine :=
  let l := (t.zone z).limits
  let r := Bank.nth readings z.idx
  e.putZone z { e.zone z with depleted := depletedVerdict l r, full := fullVerdict l r }

/-- Every zone's verdicts formed anew (R138). -/
def Engine.verdicts (e : Engine) (t : Tables) (readings : Bank Reading 6) : Engine :=
  Zone.all.foldl (Engine.formVerdicts t readings) e

/-! ## Offending orders -/

/-- The cause given for work that offends a zone in a state (R139). -/
def tripCause (z : Zone) (st : ZoneState) : Ending :=
  match st with
  | .blind => .atZone .zoneBlind z
  | .highTrip | .lowTrip | .normal => .atZone .zoneTrip z

/-- Whether a channel's order is ended at a zone's entry to a state: WAITING, SETTING or RUNNING, an offending current copy, and not the zone's own reserve (R139). -/
def Order.offendsZone (o : Order) (t : Tables) (z : Zone) (st : ZoneState) : Bool :=
  (match o.phase with
    | .waiting | .setting | .running => true
    | .ending _ => false)
  && decide (o.owner ≠ .reserve z)
  && offends z st (t.entry o.copy.path)

/-- One channel judged at a zone's entry to a state (R139). -/
def Engine.endOffender (t : Tables) (k : Engine → Engine) (z : Zone) (st : ZoneState) (e : Engine)
    (c : ChannelNo) : Engine :=
  match e.order c with
  | none => e
  | some o => if o.offendsZone t z st then e.imposeEnd t k c (tripCause z st) else e

/-- Every offending order ended (R139). DESIGN CHOICE (log 11): in channel-number order, each with the grant scan of its own withdrawal. -/
def Engine.endOffenders (e : Engine) (t : Tables) (k : Engine → Engine) (z : Zone) (st : ZoneState) : Engine :=
  allChannels.foldl (Engine.endOffender t k z st) e

/-! ## Reserve starts -/

/-- The zone becomes reserve-pending (R141). -/
def Engine.becomePending (e : Engine) (z : Zone) : Engine := (e.setPending z true).setOutcome z .pending

/-- A reserve start on its channel when the channel is IDLE, otherwise the zone becomes pending (R141). -/
def Engine.startOrPend (e : Engine) (t : Tables) (k : Engine → Engine) (z : Zone) (r : Reserve) : Engine :=
  match e.order r.channel with
  | none => e.startReserve t k z r
  | some _ => e.becomePending z

/-- A reserve start that falls due (R141, R142). -/
def Engine.reserveDue (e : Engine) (t : Tables) (k : Engine → Engine) (z : Zone) (r : Reserve) : Engine :=
  if e.ownReserve z then e.setOutcome z .started
  else
    match e.part with
    | .starting | .parked | .waking => e.becomePending z
    | .ready =>
      match e.order r.channel with
      | none => e.startReserve t k z r
      | some o =>
        match o.owner with
        | .reserve _ => e.becomePending z
        | .host | .regulator => (e.imposeEnd t k r.channel (.plain .preempted)).startOrPend t k z r

/-! ## The judgement of a zone -/

/-- The outcome at a trigger, before any start: STARTED for a running reserve, PENDING for a pending zone, else NONE (R147). -/
def Engine.triggerOutcome (e : Engine) (z : Zone) : ReserveOutcome :=
  if e.ownReserve z then .started
  else if (e.zone z).pending then .pending
  else .none

/-- The trip record at a trigger (R147): hottest and coldest are absent for BLIND. -/
def Engine.trigger (e : Engine) (z : Zone) (st : ZoneState) (r : Reading) : Engine :=
  e.putZone z { e.zone z with
    state := st
    trip := ⟨some st, if st = .blind then none else r.hottest, if st = .blind then none else r.coldest,
      e.triggerOutcome z⟩ }

/-- Whether a reserve start falls due at a trigger: HIGH-TRIP or LOW-TRIP, and none running or pending (R141, R147). -/
def startFallsDue (st : ZoneState) (outcome : ReserveOutcome) : Bool :=
  match st, outcome with
  | .highTrip, .none | .lowTrip, .none => true
  | _, _ => false

/-- A zone enters a trip or BLIND: the part wakes, the trip record, the offending orders, the reserve start, the report (R139, R141, R147 to R149). -/
def Engine.enterTrip (e : Engine) (t : Tables) (k : Engine → Engine) (z : Zone) (st : ZoneState) (r : Reading) : Engine :=
  let e1 := (e.wakeUp).trigger z st r
  let e2 := e1.endOffenders t k z st
  let e3 :=
    match (t.zone z).reserve with
    | none => e2
    | some x => if startFallsDue st (e1.zone z).trip.outcome then e2.reserveDue t k z x else e2
  e3.handZone z

/-- A pending start dropped with outcome NOT-STARTED (R134, R144). -/
def Engine.dropPending (e : Engine) (z : Zone) : Engine :=
  if (e.zone z).pending then (e.setPending z false).setOutcome z .notStarted else e

/-- A tripped zone returns to NORMAL (R144). -/
def Engine.returnNormal (e : Engine) (z : Zone) : Engine :=
  ((e.putZone z { e.zone z with state := .normal }).dropPending z).handZone z

/-- One zone judged at a scan end (R137). -/
def Engine.judgeZone (t : Tables) (k : Engine → Engine) (readings : Bank Reading 6) (e : Engine) (z : Zone) : Engine :=
  let r := Bank.nth readings z.idx
  let st := zoneNext (t.zone z).limits r (e.zone z).state
  if st = (e.zone z).state then e
  else if st = .normal then e.returnNormal z
  else e.enterTrip t k z st r

/-- Every zone judged, in zone-number order (R137, R141). -/
def Engine.judgeZones (e : Engine) (t : Tables) (k : Engine → Engine) (readings : Bank Reading 6) : Engine :=
  Zone.all.foldl (Engine.judgeZone t k readings) e

/-! ## A reserve group written while the zone is pending (R134) -/

/-- A pending start judged afresh against the reserve group as now written: the report follows when the outcome has changed (R134, R148). -/
def Engine.rejudgePending (e : Engine) (t : Tables) (k : Engine → Engine) (z : Zone) : Engine :=
  if (e.zone z).pending then
    match (t.zone z).reserve with
    | none => (e.dropPending z).handZone z
    | some r =>
      let e' := (e.setPending z false).reserveDue t k z r
      if (e'.zone z).trip.outcome = (e.zone z).trip.outcome then e' else e'.handZone z
  else e

end Sys2Proof.Machine
end

