-- ==== Sys2Proof/Machine/Meters.lean ====
section
/-! DEFINITION. The heat meters: the judgement of a meter at a scan end (R14 to R20), hold expiry (R18), the hand-over hold (R20), parking (R21). -/

namespace Sys2Proof.Machine

open Sys2Proof

/-- The three values a meter's inputs give when all are VALID: flow, supply, return, in tenths (R14). -/
structure MeterInputs where
  flow : Int
  supply : Int
  ret : Int
  deriving DecidableEq, Repr

/-- What a meter's judgement needs from outside it: coolant constant, hold time in seconds (R15, R17). -/
structure MeterTuning where
  coolant : Nat
  hold : Nat
  deriving DecidableEq, Repr

/-- The rate of a meter from its inputs (R15). -/
def MeterInputs.rate (i : MeterInputs) (coolant : Nat) : Int := meterRate i.flow coolant i.ret i.supply

/-- An INVALID meter: no rate, no held rate, no count, residue 0 (R16, R21). -/
def MeterRec.lost (_m : MeterRec) : MeterRec := .initial

/-- A meter's judgement: the meter after it, the scan heat handed on, the report to its channels. -/
structure Judged where
  meter : MeterRec
  heat : Option Int
  report : MeterReport
  deriving DecidableEq, Repr

/-- VALID from its inputs: the rate afresh, heat from it, hold discarded (R15, R16, R18, R19). -/
def MeterRec.measured (m : MeterRec) (rate : Int) (x : MeterReport) : Judged :=
  let h := scanHeat m.residue rate
  ⟨⟨.valid, some rate, none, 0, none, h.2, false, false⟩, some h.1, x⟩

/-- HOLDING with a held rate and a hold count: heat from the held rate, the expiry due when the count reaches the hold time (R17, R18). -/
def MeterRec.holdingAt (m : MeterRec) (rate : Int) (count hold : Nat) (x : MeterReport) : Judged :=
  let h := scanHeat m.residue rate
  ⟨{ m with state := .holding, held := some rate, holdCount := count, before := none, residue := h.2,
            handOverEnded := false, expiryDue := decide (hold * 10 ≤ count) }, some h.1, x⟩

/-- The rate of a meter after a scan: computed afresh from valid inputs, otherwise as last computed (R15). -/
def MeterRec.rateFrom (m : MeterRec) (c : MeterTuning) (inputs : Option MeterInputs) : Option Int :=
  match inputs with
  | some i => some (i.rate c.coolant)
  | none => m.rate

/-- The first loss of inputs: HOLDING with count 1, or INVALID with the hold-expiry report when the hold time is 0 (R17). -/
def MeterRec.firstLoss (m : MeterRec) (rate : Int) (hold : Nat) : Judged :=
  if hold = 0 then ⟨m.lost, none, .expiry⟩ else m.holdingAt rate 1 hold .held

/-- The judgement of a meter at a scan end (R14 to R20): in HAND-OVER its heat is formed from the held rate, and valid inputs give it a rate all the same (R15). DEDUCED (log 34): a meter recorded VALID whose hand-over ends without valid inputs holds, as in R17, the rate of the last scan with valid inputs, not the rate held during the hand-over. -/
def MeterRec.judge (m : MeterRec) (c : MeterTuning) (inputs : Option MeterInputs) : Judged :=
  match m.state, inputs with
  | .valid, some i => m.measured (i.rate c.coolant) .none
  | .valid, none => m.firstLoss (m.rate.getD 0) c.hold
  | .holding, some i => m.measured (i.rate c.coolant) .true_
  | .holding, none => m.holdingAt (m.held.getD 0) (m.holdCount + 1) c.hold .none
  | .invalid, some i => m.measured (i.rate c.coolant) .true_
  | .invalid, none => ⟨m.lost, none, .none⟩
  | .handOver, x =>
    if m.handOverEnded then
      match x with
      | some i => m.measured (i.rate c.coolant) .true_
      | none =>
        if m.before = some .holding then m.holdingAt (m.held.getD 0) (m.holdCount + 1) c.hold .held
        else m.firstLoss (m.rate.getD 0) c.hold
    else
      let h := scanHeat m.residue (m.held.getD 0)
      ⟨{ m with rate := m.rateFrom c x, residue := h.2 }, some h.1, .held⟩

/-- A hand-over of the loop's pump role begins: the state it held is recorded and its rate held (R20). -/
def MeterRec.beginHandOver (m : MeterRec) : MeterRec :=
  match m.state with
  | .valid => { m with state := .handOver, held := m.rate, before := some .valid }
  | .holding => { m with state := .handOver, before := some .holding }
  | .handOver => { m with handOverEnded := false }
  | .invalid => m

/-- The output stage tells the meter that the hand-over has ended: it stays held until the next scan end (R20). -/
def MeterRec.tellEnded (m : MeterRec) : MeterRec :=
  match m.state with
  | .handOver => { m with handOverEnded := true }
  | .valid | .holding | .invalid => m

/-- One meter judged; its report goes to the channels and its heat into the figures. -/
def Engine.judgeMeter (t : Tables) (k : Engine → Engine) (inputs : Meter → Option MeterInputs)
    (x : Engine × Bank (Option Int) 4) (m : Meter) : Engine × Bank (Option Int) 4 :=
  let j := (x.1.meter m).judge ⟨t.tuning.coolant, t.tuning.meterHold⟩ (inputs m)
  ((x.1.putMeter m j.meter).meterReport t k m j.report, Bank.put x.2 m.idx j.heat)

/-- Every meter judged at a full scan's end, with the scan heats they hand on (R14, R16). DESIGN CHOICE (log 35): in meter-number order. -/
def Engine.judgeMeters (e : Engine) (t : Tables) (k : Engine → Engine) (inputs : Meter → Option MeterInputs) :
    Engine × Bank (Option Int) 4 :=
  Meter.all.foldl (Engine.judgeMeter t k inputs) (e, Vector.replicate 4 none)

/-- The hold of a meter has run out: INVALID, and the hold-expiry report to its channels (R18, R77). -/
def Engine.holdExpires (e : Engine) (t : Tables) (k : Engine → Engine) (m : Meter) : Engine :=
  if (e.meter m).state = .holding ∧ (e.meter m).expiryDue then
    (e.putMeter m (e.meter m).lost).meterReport t k m .expiry
  else e

/-- Every meter INVALID, as at the entry to PARKED (R21). -/
def Engine.meterAllLost (e : Engine) : Engine := { e with meters := Bank.each e.meters MeterRec.lost }

/-- A hand-over of a pump role begins at its loop's meter, which reports itself held (R20, R125). -/
def Engine.meterHandOver (e : Engine) (t : Tables) (k : Engine → Engine) (r : Role) : Engine :=
  match r.loopMeter with
  | none => e
  | some m =>
    let x := (e.meter m).beginHandOver
    (e.putMeter m x).meterReport t k m (if x.state = .handOver then .held else .none)

/-- A hand-over of a pump role has ended, as its loop's meter is told (R20, R125). -/
def Engine.meterHandOverEnded (e : Engine) (r : Role) : Engine :=
  match r.loopMeter with
  | none => e
  | some m => e.putMeter m (e.meter m).tellEnded

end Sys2Proof.Machine
end

