-- ==== Sys2Proof/Machine/Outputs.lean ====
section
/-! DEFINITION. The output stage: feedback (R115, R119, R120), targets and ramps (R117, R118), output faults (R121, R122), valves (R119, R120), role exchange and hand-over (R124 to R126), tests (R127, R128), what parking and a soft reset do to it (R129, R131). -/

namespace Sys2Proof.Machine

open Sys2Proof

/-! ## Feedback -/

/-- The overcurrent bound of R121 in tenths of a percent. -/
def overcurrentBound : Nat := 1200

/-- A count of consecutive scan ends: one more up to `cap`, or 0 (R119, R121). -/
def countWhile (holds : Bool) (cap n : Nat) : Nat := if holds then min cap (n + 1) else 0

/-- Load current below 5 percent at a level of at least 10.0 percent (R121). -/
def openLoadSeen (level current : Nat) : Bool := decide (100 ≤ level ∧ current < 50)

/-- Speed below half of a level of at least 10.0 percent, for the kinds that turn (R121). -/
def stallSeen (k : OutputKind) (level speed : Nat) : Bool := k.turns && decide (100 ≤ level ∧ 2 * speed < level)

/-- An output after its feedback has been read at a scan end: the readings, and while IN-SERVICE the two counts (R115, R121). DESIGN CHOICE (log 12): a spare outside a hand-over that still ramps down at 10.0 percent or more counts too. -/
def OutputRec.read (r : OutputRec) (k : OutputKind) (f : OutputFeedback) : OutputRec :=
  match r.state with
  | .inService =>
    { r with current := f.current, speed := f.speed
             openCount := countWhile (openLoadSeen r.level f.current) 10 r.openCount
             stallCount := countWhile (stallSeen k r.level f.speed) 30 r.stallCount }
  | .faulted => { r with current := f.current, speed := f.speed }
  | .testing => { r with current := f.current, speed := f.speed, testTimer := r.testTimer.map (· - 1) }

/-- A valve's feedback position after a reading: the last good one is kept at a miss (R119, R120). -/
def ValveRec.readPosition (v : ValveRec) (x : Option Int) : ValveRec :=
  match goodFeedback x with
  | some f => { v with feedback := some f, missCount := 0 }
  | none => { v with missCount := min 3 (v.missCount + 1) }

/-- Whether the last scan end gave a good position reading that lies within the band of `pos` (R119). -/
def ValveRec.reads (v : ValveRec) (pos : Nat) : Bool :=
  decide (v.missCount = 0) && v.feedback.any (fun f => nearPosition f pos)

/-- Whether the valve is driven and its reading of the last scan end is in position (R119). -/
def ValveRec.arrived (v : ValveRec) : Bool := v.commanded.any v.reads

/-- Whether the reading of this scan end lies outside the band of a driven valve (R119). -/
def ValveRec.drifting (v : ValveRec) : Bool :=
  match v.commanded with
  | none => false
  | some p => decide (v.missCount = 0) && !v.reads p

/-- A valve's travel timer and drift count at a scan end, after its reading (R119). -/
def ValveRec.aged (v : ValveRec) : ValveRec :=
  match v.state with
  | .atPosition => { v with driftCount := countWhile v.drifting 10 v.driftCount }
  | .travelling => { v with travelTimer := v.travelTimer - 1 }
  | .faulted => if v.test.isSome then { v with travelTimer := v.travelTimer - 1 } else v

/-- A valve at a scan end: read, then aged. -/
def ValveRec.scanned (v : ValveRec) (x : Option Int) : ValveRec := (v.readPosition x).aged

/-- Every output's and valve's feedback read at a scan end (R115, R119). -/
def Engine.readFeedback (e : Engine) (straps : Straps) (f : Feedback) : Engine :=
  let e1 := allOutputs.foldl (fun e o =>
    if outputPresent straps o then
      e.putOutput o ((e.output o).read (outputKind o) (Bank.nth f.outputs o))
    else e) e
  allValves.foldl (fun e v => e.putValve v ((e.valve v).scanned (Bank.nth f.valves v))) e1

/-! ## The hand-over -/

/-- The hand-over ends, whatever stands of it, and the loop's meter is told (R125, R126). -/
def Engine.endHandOver (e : Engine) : Engine :=
  match e.ost.handOver with
  | none => e
  | some h => { e with ost := { e.ost with handOver := none } }.meterHandOverEnded h.role

/-- What a fault of an output does to a hand-over (R126): the INCOMING output's ends it, the OUTGOING one leaves it. -/
def Engine.handOverFault (e : Engine) (o : OutputNo) : Engine :=
  match e.ost.handOver with
  | none => e
  | some h =>
    if h.incoming = o then e.endHandOver
    else if h.outgoing.any (fun x => x.1 = o) then
      { e with ost := { e.ost with handOver := some { h with outgoing := none } } }
    else e

/-- The OUTGOING level with `k` of `n` scans left (R125). -/
def outgoingLevel (start k n : Nat) : Nat := roundUp (start * k) n

/-- The INCOMING level with `k` of `n` scans left (R125). -/
def incomingLevel (target k n : Nat) : Nat := roundUp (target * (n - k)) n

/-- One scan end of a hand-over: the timer falls and the two levels are set without ramps (R125). -/
def Engine.handOverStep (e : Engine) : Engine :=
  match e.ost.handOver with
  | none => e
  | some h =>
    let k := h.timer - 1
    let e1 := { e with ost := { e.ost with handOver := some { h with timer := k } } }
    let e2 := match h.outgoing with
      | none => e1
      | some (o, start) => e1.putOutput o { e1.output o with level := outgoingLevel start k h.length }
    let x := e2.output h.incoming
    e2.putOutput h.incoming { x with level := incomingLevel x.target k h.length }

/-- Whether an output takes part in the hand-over (R125). -/
def HandOver.has (h : HandOver) (o : OutputNo) : Bool := h.incoming = o || h.outgoing.any (fun x => x.1 = o)

/-! ## Output faults -/

/-- A faulty output: FAULTED with the kind, counts cleared, driven at 0 (R118, R122). -/
def OutputRec.faultedWith (r : OutputRec) (k : OutputFault) : OutputRec :=
  { r with state := .faulted, fault := some k, target := 0, level := 0, openCount := 0, stallCount := 0, testTimer := none }

/-- An IN-SERVICE output judged faulty: its record, the hand-over, the revocation of its role's holders with a grant scan, the report (R122, R126). -/
def Engine.outputFault (e : Engine) (t : Tables) (o : OutputNo) (k : OutputFault) : Engine :=
  let e1 := (e.putOutput o ((e.output o).faultedWith k)).handOverFault o
  let e2 := match e1.ost.served o with
    | none => e1
    | some r => e1.revokeHolders t r
  e2.hand (e2.outputReport o)

/-- A test of an output ends with a fault kind: FAULTED, driven at 0, with its report (R123, R127). -/
def Engine.testFails (e : Engine) (o : OutputNo) (k : OutputFault) : Engine :=
  let e1 := e.putOutput o ((e.output o).faultedWith k)
  e1.hand (e1.outputReport o)

/-- An output whose test has passed (R127). -/
def OutputRec.passed (r : OutputRec) : OutputRec :=
  { r with state := .inService, fault := none, target := 0, level := 0, openCount := 0, stallCount := 0, testTimer := none }

/-- A test of an output passes: IN-SERVICE, a grant scan, and a standing report updated (R123, R127). -/
def Engine.testPasses (e : Engine) (t : Tables) (o : OutputNo) : Engine :=
  let e1 := (e.putOutput o (e.output o).passed).grantScan t
  if standsIn e1.reports (.output o) then e1.hand (e1.outputReport o) else e1

/-- OVERCURRENT at a scan end: a fault of an IN-SERVICE output, the failure of a test (R121, R127). -/
def Engine.judgeOvercurrent (t : Tables) (e : Engine) (o : OutputNo) : Engine :=
  let r := e.output o
  if outputPresent t.straps o && decide (overcurrentBound ≤ r.current) then
    match r.state with
    | .inService => e.outputFault t o .overcurrent
    | .testing => e.testFails o .overcurrent
    | .faulted => e
  else e

/-- Every output judged OVERCURRENT at a scan end, in output order. -/
def Engine.overcurrents (e : Engine) (t : Tables) : Engine := allOutputs.foldl (Engine.judgeOvercurrent t) e

/-- OPEN_LOAD: an IN-SERVICE output whose open-load count has reached 10 (R121). -/
def Engine.openLoadReached (e : Engine) (t : Tables) (o : OutputNo) : Engine :=
  if (e.output o).state = .inService ∧ 10 ≤ (e.output o).openCount then e.outputFault t o .openLoad else e

/-- STALL: an IN-SERVICE output whose stall count has reached 30, OPEN-LOAD being taken first (R121). -/
def Engine.stallReached (e : Engine) (t : Tables) (o : OutputNo) : Engine :=
  if (e.output o).state = .inService ∧ (e.output o).openCount < 10 ∧ 30 ≤ (e.output o).stallCount then
    e.outputFault t o .stall
  else e

/-- OUTPUT_TEST_END: the test timer has reached 0 and the test is judged on the readings of that scan end (R127). -/
def Engine.testEnds (e : Engine) (t : Tables) (o : OutputNo) : Engine :=
  let r := e.output o
  if r.state = .testing ∧ r.testTimer = some 0 then
    if r.current < 50 then e.testFails o .openLoad
    else if (outputKind o).turns ∧ r.speed < 150 then e.testFails o .stall
    else e.testPasses t o
  else e

/-- HAND_OVER_END: the hand-over timer has reached 0 (R125). -/
def Engine.handOverEnds (e : Engine) : Engine :=
  if e.ost.handOver.any (fun h => h.timer = 0) then e.endHandOver else e

/-! ## Targets and levels -/

/-- The demands of a role's holders, oldest grant first (R117). -/
def Engine.demandsOn (e : Engine) (r : Role) : List Nat :=
  (holdersOf e.mar.grants r).map (fun g =>
    match e.order g.channel with
    | none => 0
    | some o => Bank.nth o.demands r.idx)

/-- The holders' demands combined: the highest for pumps and fan, the sum otherwise (R86, R117). -/
def combine (r : Role) (ds : List Nat) : Nat := if r.pumpOrFan then ds.foldl max 0 else ds.sum

/-- The target of an output (R117). -/
def Engine.targetOf (e : Engine) (o : OutputNo) : Nat :=
  match (e.output o).state, e.ost.served o with
  | .inService, some r => combine r (e.demandsOn r)
  | _, _ => 0

/-- One output's target formed, and its level moved by its ramp unless a test, a fault or the hand-over drives it (R117, R118). -/
def Engine.driveOutput (e : Engine) (o : OutputNo) : Engine :=
  let r := e.output o
  let target := e.targetOf o
  match r.state with
  | .faulted => e.putOutput o { r with target := 0, level := 0 }
  | .testing => e.putOutput o { r with target := 0 }
  | .inService =>
    if e.ost.handOver.any (fun h => h.has o) then e.putOutput o { r with target := target }
    else e.putOutput o { r with target := target, level := ramp (outputKind o) r.level target }

/-- Targets and levels at a scan end, with the hand-over's step (R117, R118, R125). -/
def Engine.driveOutputs (e : Engine) (straps : Straps) : Engine :=
  (allOutputs.foldl (fun e o => if outputPresent straps o then e.driveOutput o else e) e).handOverStep

/-! ## Valves -/

/-- One channel enters RUNNING when the valve that has arrived was the last of its set (R56). -/
def Engine.enterIfStanding (t : Tables) (k : Engine → Engine) (v : ValveNo) (e : Engine) (c : ChannelNo) : Engine :=
  match e.order c with
  | none => e
  | some o =>
    if o.phase = .setting ∧ (o.path t).valves.any (fun x => x.1 = v) ∧ e.valvesStand (o.path t) then
      e.enterRunning t k c o
    else e

/-- VALVE_AT_POSITION: a TRAVELLING valve whose reading is in position stops there, and channels whose valves now all stand enter RUNNING (R56, R119). DESIGN CHOICE (log 35): in channel-number order. -/
def Engine.valveArrives (e : Engine) (t : Tables) (k : Engine → Engine) (v : ValveNo) : Engine :=
  let x := e.valve v
  if x.state = .travelling ∧ x.arrived then
    allChannels.foldl (Engine.enterIfStanding t k v)
      (e.putValve v { x with state := .atPosition, travelTimer := 0 })
  else e

/-- One channel in SETTING that claims a faulted valve ends VALVE-FAULT (R75, R120). -/
def Engine.endIfClaims (t : Tables) (k : Engine → Engine) (v : ValveNo) (e : Engine) (c : ChannelNo) : Engine :=
  match e.order c with
  | none => e
  | some o =>
    if o.phase = .setting ∧ (o.path t).valves.any (fun x => x.1 = v) then e.imposeEnd t k c (.valveFault v) else e

/-- A valve faults, or its test fails: FAULTED with the kind, the test over, its drive kept (R120, R128). -/
def ValveRec.faultedWith (v : ValveRec) (k : ValveFault) : ValveRec :=
  { v with state := .faulted, fault := some k, travelTimer := 0, driftCount := 0, test := none }

/-- A valve fault (R120): every SETTING channel that claims the valve ends. DESIGN CHOICE (log 35): in channel-number order. A test that fails ends none, as none can hold the valve (R129). -/
def Engine.valveFaults (e : Engine) (t : Tables) (k : Engine → Engine) (v : ValveNo) (f : ValveFault) : Engine :=
  allChannels.foldl (Engine.endIfClaims t k v) (e.putValve v ((e.valve v).faultedWith f))

/-- Whether a travel, of a valve in service or of a test, has run out of time (R120, R128). -/
def ValveRec.timedOut (v : ValveRec) : Bool :=
  decide (v.travelTimer = 0) &&
    (match v.state, v.test with
      | .travelling, _ => !v.arrived
      | .faulted, some x => !v.reads (match x.leg with | .toZero => 0 | .back => x.returnTo)
      | _, _ => false)

/-- VALVE_TRAVEL_TIMEOUT (R120, R128). -/
def Engine.valveTimesOut (e : Engine) (t : Tables) (k : Engine → Engine) (v : ValveNo) : Engine :=
  if (e.valve v).timedOut then e.valveFaults t k v .travelTimeout else e

/-- Whether feedback has been missing or out of range at 3 consecutive scan ends of a valve that can still fault (R120, R128). -/
def ValveRec.feedbackGone (v : ValveRec) : Bool :=
  decide (v.missCount = 3) && (decide (v.state ≠ .faulted) || v.test.isSome)

/-- VALVE_FEEDBACK_LOST (R120, R128). -/
def Engine.valveLosesFeedback (e : Engine) (t : Tables) (k : Engine → Engine) (v : ValveNo) : Engine :=
  if (e.valve v).feedbackGone then e.valveFaults t k v .feedbackLost else e

/-- VALVE_DRIFT: an AT-POSITION valve outside the band at 10 consecutive scan ends travels again to its commanded position (R119). -/
def Engine.valveDrifts (e : Engine) (t : Tables) (v : ValveNo) : Engine :=
  let x := e.valve v
  if x.state = .atPosition ∧ 10 ≤ x.driftCount then
    e.putValve v { x with state := .travelling, travelTimer := t.tuning.valveTimeout * 10, driftCount := 0 }
  else e

/-- VALVE_TEST_FIRST_LEG: the tested valve stands at 0 and is commanded back (R128). -/
def Engine.valveTestTurns (e : Engine) (t : Tables) (v : ValveNo) : Engine :=
  let x := e.valve v
  match x.test with
  | none => e
  | some y =>
    if y.leg = .toZero ∧ x.reads 0 then
      e.putValve v { x with commanded := some y.returnTo, travelTimer := t.tuning.valveTimeout * 10
                            test := some { y with leg := .back } }
    else e

/-- VALVE_TEST_PASS: the tested valve stands at the position it returns to; AT-POSITION there, its fault cleared, and a grant scan (R128). -/
def Engine.valveTestPasses (e : Engine) (t : Tables) (v : ValveNo) : Engine :=
  let x := e.valve v
  match x.test with
  | none => e
  | some y =>
    if y.leg = .back ∧ x.reads y.returnTo then
      (e.putValve v { x with state := .atPosition, commanded := some y.returnTo, travelTimer := 0
                             driftCount := 0, fault := none, test := none }).grantScan t
    else e

/-! ## EXCHANGE ROLE (R124, R125) -/

/-- The role map with a role moved onto another output. -/
def Engine.remap (e : Engine) (r : Role) (o : OutputNo) : Engine :=
  { e with ost := { e.ost with roleMap := Bank.put e.ost.roleMap r.idx o } }

/-- An exchange made at once: the spare serves the role from level 0 with the role's target, and the former output is the spare (R124). -/
def Engine.exchangeAtOnce (e : Engine) (t : Tables) (r : Role) (spare : OutputNo) : Engine :=
  let old := e.mapped r
  let e1 := e.remap r spare
  let e2 := e1.putOutput spare { e1.output spare with target := (e.output old).target, level := 0 }
  (e2.putOutput old { e2.output old with target := 0 }).grantScan t

/-- A hand-over begins: the map changes at once, both outputs take part, the loop's meter is held, and a grant scan follows (R125). -/
def Engine.exchangeHeld (e : Engine) (t : Tables) (r : Role) (spare : OutputNo) : Engine :=
  let old := e.mapped r
  let e1 := e.remap r spare
  let e2 := e1.putOutput spare { e1.output spare with target := (e.output old).target, level := 0 }
  let e3 := e2.putOutput old { e2.output old with target := 0 }
  let n := t.tuning.handOverTime * 10
  let e4 := { e3 with ost := { e3.ost with handOver := some ⟨r, spare, some (old, (e.output old).level), n, n⟩ } }
  (e4.meterHandOver t (Engine.grantScan t) r).grantScan t

/-! ## Tests (R127, R128) -/

/-- The circuit an output's test sets: the compressor's current mode, or cooling when it is UNSET; none for the other outputs (R127). -/
def testCircuit (comp : Compressor) (o : OutputNo) : Option Circuit :=
  match outputKind o with
  | .compressor => some (comp.mode.getD .cool)
  | .pump | .chiller | .heater | .fan => none

/-- The test of an output begins (R127). -/
def Engine.beginOutputTest (e : Engine) (o : OutputNo) : Engine :=
  (e.putOutput o { e.output o with state := .testing, target := 0, level := 300, testTimer := some 20 }).setCircuit
    (testCircuit e.mar.comp o)

/-- The test of a valve begins: commanded to 0, to return to its commanded position, else to the position read, else to 0 (R128). DESIGN CHOICE (log 16): the position counts as read while no miss is counted, so also after a RESET or the end of output enable has cleared the count of a missed last reading. -/
def Engine.beginValveTest (e : Engine) (t : Tables) (v : ValveNo) : Engine :=
  let x := e.valve v
  let back := match x.commanded, x.feedback with
    | some p, _ => p
    | none, some f => if x.missCount = 0 then f else 0
    | none, none => 0
  e.putValve v { x with commanded := some 0, travelTimer := t.tuning.valveTimeout * 10, missCount := 0
                        test := some ⟨.toZero, back⟩ }

/-! ## Across parking, reset and waking (R129, R131) -/

/-- Every output at 0 and every valve's drive withdrawn, as at the entry to PARKED; states and fault kinds are kept (R131). -/
def OutputStage.parked (s : OutputStage) : OutputStage :=
  { s with
    outputs := Bank.each s.outputs (fun r => { r with target := 0, level := 0 })
    valves := Bank.each s.valves (fun v => { v with commanded := none, driftCount := 0 })
    handOver := none }

/-- Every count at 0, as when fault judging resumes (R131). -/
def OutputStage.countsCleared (s : OutputStage) : OutputStage :=
  { s with
    outputs := Bank.each s.outputs (fun r => { r with openCount := 0, stallCount := 0 })
    valves := Bank.each s.valves (fun v => { v with missCount := 0, driftCount := 0 }) }

/-- An output after a soft reset: at 0, a test abandoned with its fault kind kept, counts 0 (R129, R131). -/
def OutputRec.afterReset (r : OutputRec) : OutputRec :=
  { r with
    state := match r.state with
      | .testing | .faulted => .faulted
      | .inService => .inService
    target := 0
    level := 0
    openCount := 0
    stallCount := 0
    testTimer := none }

/-- A valve after a soft reset: its drive withdrawn where it stands, a test abandoned, counts 0, its fault kept (R129, R131). -/
def ValveRec.afterReset (v : ValveRec) : ValveRec :=
  { v with
    state := match v.state with
      | .faulted => .faulted
      | .travelling | .atPosition => .atPosition
    commanded := none
    travelTimer := 0
    missCount := 0
    driftCount := 0
    test := none }

/-- The output stage after a soft reset; the role map is kept, and the circuit as an UNSET mode leaves it (R117, R126, R131). -/
def OutputStage.afterReset (s : OutputStage) : OutputStage where
  outputs := Bank.each s.outputs OutputRec.afterReset
  valves := Bank.each s.valves ValveRec.afterReset
  roleMap := s.roleMap
  handOver := none
  circuit := s.circuit

end Sys2Proof.Machine
end

