-- ==== Sys2Proof/Machine/Regulator.lean ====
section
/-! DEFINITION. The comfort regulator: its judgement of the cab (R157), starts (R158), the renewal of the rate (R159), its own ends (R160), the return from HELD (R161), direction changes (R162). -/

namespace Sys2Proof.Machine

open Sys2Proof

/-- The channel of the regulator's orders. -/
def comfortChannel : ChannelNo := 5

/-- The path setting of a direction; RESTING has none (R153). -/
def pathSetting (s : ComfortSettings) (d : Direction) : Option PathNo :=
  match d with
  | .resting => none
  | .heating => s.heatPath
  | .cooling => s.coolPath

/-- The direction the band asks for (R157). -/
def bandWants (target : Int) (deadband : Nat) (mean : Int) : Direction :=
  if mean < target - deadband then .heating
  else if target + deadband < mean then .cooling
  else .resting

/-- Whether the pre-check of a path fails (R157). -/
def Engine.precheckFails (e : Engine) (p : PathEntry) : Bool :=
  (e.zone p.source).depleted || decide ((e.zone p.source).state = .lowTrip)
  || (e.zone p.sink).full || decide ((e.zone p.sink).state = .highTrip)

/-- The direction wanted after the pre-check (R157). -/
def Engine.wants (e : Engine) (t : Tables) (mean : Int) : Direction :=
  let d := bandWants e.crg.target e.crg.settings.deadband mean
  match pathSetting e.crg.settings d with
  | none => .resting
  | some n => if e.precheckFails (t.entry n) then .resting else d

/-- The target rate of the regulator for a path (R159). -/
def Engine.comfortRateFor (e : Engine) (t : Tables) (n : PathNo) (mean : Int) : Nat :=
  comfortRate e.crg.settings.gain e.crg.target mean (t.entry n).capacity

/-- The internal segment of a path (R158). -/
def internalCopy (n : PathNo) (rate : Nat) : Copy :=
  ⟨n, none, rate, 0, 0, ⟨false, false, false, false, false⟩, none⟩

/-- The checks of R158 on an internal copy: 2 and 3 of R34, the zone access check, the setup check. -/
def Engine.checkInternal (e : Engine) (t : Tables) (x : Copy) : Option Ending :=
  match validate t 3 none x with
  | some g => some g
  | none => e.setup t .regulator x

/-- A start in a direction (R158): an order of class 3 and tag 0, or the end of one that fails its checks, with the record it forms (R160). -/
def Engine.comfortStart (e : Engine) (t : Tables) (k : Engine → Engine) (d : Direction) (n : PathNo) (mean : Int) : Engine :=
  let x := internalCopy n (e.comfortRateFor t n mean)
  let o := newOrder .regulator 0 3 none x e.crg.settings.waitLimit
  match e.checkInternal t x with
  | some g => (e.regulatorTakes .regulator g).closeOrder comfortChannel o g
  | none => (e.putRegState (.active d)).takeOrder t k comfortChannel o

/-- An order with the rate of its internal copy renewed, by its state (R159). -/
def Order.renewed (o : Order) (rate : Nat) : Order :=
  match o.phase with
  | .waiting | .setting | .running => { o with copy := { o.copy with rate := rate } }
  | .ending r =>
    match r.purpose with
    | .transition => { o with next := o.next.map (fun x => { x with rate := rate }) }
    | .endWith _ => o

/-- The regulator's order on channel 5, if the channel runs it. -/
def Engine.comfortOrder (e : Engine) : Option Order :=
  match e.order comfortChannel with
  | none => none
  | some o => if o.owner = .regulator then some o else none

/-- The renewal of the target rate (R159). -/
def Engine.renewRate (e : Engine) (rate : Nat) : Engine :=
  match e.comfortOrder with
  | none => e
  | some o => e.putOrder comfortChannel (some (o.renewed rate))

/-- The regulator's own end as the band is reached: channel 5 by its state, the direction RESTING (R157, R160). -/
def Engine.comfortEnd (e : Engine) (t : Tables) (k : Engine → Engine) : Engine :=
  let e1 := e.putRegState (.active .resting)
  match e1.comfortOrder with
  | none => e1
  | some _ => e1.imposeEnd t k comfortChannel (.plain .complete)

/-- A WAITING order whose copy a direction change replaces: the new set at the front of class 3, the wait timer running on (R162). -/
def Engine.redirectWaiting (e : Engine) (t : Tables) (k : Engine → Engine) (o : Order) (x : Copy) : Engine :=
  let o' := { o with
    copy := x, segTime := 0, runFlag := false
    meterHeld := o.meterHeld && decide ((t.entry o.copy.path).meter = (t.entry x.path).meter) }
  k (((e.putOrder comfortChannel (some o')).withdraw comfortChannel).submitFront t comfortChannel o')

/-- A direction change handed to channel 5, by the channel's state (R162). -/
def Engine.redirect (e : Engine) (t : Tables) (k : Engine → Engine) (d : Direction) (n : PathNo) (mean : Int) : Engine :=
  match e.comfortOrder with
  | none => e.putRegState (.active .resting)
  | some o =>
    let x := internalCopy n (e.comfortRateFor t n mean)
    match o.phase with
    | .ending ⟨.endWith _, _, _, _, _⟩ => e.putRegState (.active .resting)
    | .ending ⟨.transition, _, _, _, _⟩ =>
      match e.checkInternal t x with
      | some g => e.imposeEnd t k comfortChannel g
      | none => (e.putOrder comfortChannel (some { o with next := some x })).putRegState (.active d)
    | .waiting =>
      match e.checkInternal t x with
      | some g => e.imposeEnd t k comfortChannel g
      | none => (e.putRegState (.active d)).redirectWaiting t k o x
    | .setting | .running =>
      match e.checkInternal t x with
      | some g => e.imposeEnd t k comfortChannel g
      | none => (e.putRegState (.active d)).enterTransition t k comfortChannel { o with next := some x }

/-- The judgement of the cab while ACTIVE (R157). -/
def Engine.judgeCab (e : Engine) (t : Tables) (k : Engine → Engine) (d : Direction) (mean : Int) : Engine :=
  let w := e.wants t mean
  match d, w, pathSetting e.crg.settings w with
  | .resting, .resting, _ => e
  | .heating, .resting, _ | .cooling, .resting, _ => e.comfortEnd t k
  | _, _, none => e
  | .resting, _, some n =>
    if (e.order comfortChannel).isNone && !e.pendingFor t comfortChannel then e.comfortStart t k w n mean else e
  | _, _, some n =>
    if w = d then e.renewRate (e.comfortRateFor t n mean) else e.redirect t k w n mean

/-- Whether HELD ends at a scan end: channel 5 IDLE, no zone pending for it, lockout clear (R161). -/
def Engine.heldEnds (e : Engine) (t : Tables) (lockout : Bool) : Bool :=
  (e.order comfortChannel).isNone && !e.pendingFor t comfortChannel && !lockout

/-- The regulator at a scan end (R157, R161). -/
def Engine.comfortJudge (e : Engine) (t : Tables) (k : Engine → Engine) (lockout : Bool) (mean : Option Int) : Engine :=
  match e.crg.state, mean with
  | .active d, some m => e.judgeCab t k d m
  | .held, _ => if e.heldEnds t lockout then e.putRegState (.active .resting) else e
  | _, _ => e

/-- COMFORT OFF: DISABLED at once, and the regulator's order ended HALTED by the channel's state (R156). -/
def Engine.comfortDisable (e : Engine) (t : Tables) (k : Engine → Engine) : Engine :=
  let e1 := e.putRegState .disabled
  match e1.comfortOrder with
  | none => e1
  | some _ => e1.imposeEnd t k comfortChannel (.plain .halted)

end Sys2Proof.Machine
end

