-- ==== Sys2Proof/Machine/Scan.lean ====
section
/-! DEFINITION. The sensor bus engine (R4 to R12) and the scan end as one step: readings, verdicts, meters, zones, channels, regulator, outputs, in the order the operand of SCAN_END gives where the spec leaves it open (log 3), and the park timer (R196). -/

namespace Sys2Proof.Machine

open Sys2Proof

/-! ## The sensor bus engine -/

/-- The inputs in number order. -/
def allInputs : List InputNo := List.finRange 32

/-- Whether an entry is read by a scan of a kind: every mapped input, or the ZONE-TEMP inputs alone (R5, R6). -/
def readBy (kind : ScanKind) (m : MapEntry) : Bool :=
  match kind, m with
  | _, .unused => false
  | .parked, .zoneTemp _ => true
  | .parked, .meterFlow _ | .parked, .meterSupply _ | .parked, .meterReturn _ => false
  | .full, _ => true
  | .waking, _ => true

/-- The record an input starts with under a map entry: LOST when mapped, none when UNUSED (R4, R11). -/
def freshInput (m : MapEntry) : Option InputRec :=
  match m with
  | .unused => none
  | .zoneTemp _ | .meterFlow _ | .meterSupply _ | .meterReturn _ => some .lostRec

/-- The inputs after the map change is applied: a changed entry restarts its input (R4). -/
def restarted (map applied : Bank MapEntry 32) (inputs : Bank (Option InputRec) 32) : Bank (Option InputRec) 32 :=
  Vector.ofFn (fun i => if Bank.nth map i = Bank.nth applied i then Bank.nth inputs i else freshInput (Bank.nth map i))

/-- A scan of a kind starts: the map change applied, the inputs to be read in number order (R4 to R6). DESIGN CHOICE (log 33): a parked scan applies the change to meter inputs too, which R6 and R11 keep until the waking scan. -/
def SensorBus.start (b : SensorBus) (kind : ScanKind) : SensorBus :=
  { b with
    applied := b.map
    inputs := restarted b.map b.applied b.inputs
    scan := some ⟨kind, allInputs.filter (fun i => readBy kind (Bank.nth b.map i))⟩ }

/-- The record of an input after a read (R9, R10). -/
def InputRec.after (r : InputRec) (value : Option Int) : InputRec :=
  match value with
  | some v => .good v
  | none => r.missed

/-- One read of the scan: the input's record, and the scan goes on to the next (R5, R9, R10). -/
def SensorBus.read (b : SensorBus) (sc : Scan) (i : InputNo) (reply : SensorReply) : SensorBus :=
  { b with
    inputs := Bank.put b.inputs i
      ((Bank.nth b.inputs i).map (fun r => r.after ((Bank.nth b.applied i).readValue reply)))
    scan := some { sc with toRead := sc.toRead.tail } }

/-- Whether an input is the one the scan reads next. -/
def Scan.readsNext (sc : Scan) (i : InputNo) : Bool := sc.toRead.head? = some i

/-- The valid values of a zone's inputs under the applied map, in input order (R2, R12). -/
def SensorBus.zoneValues (b : SensorBus) (z : Zone) : List Int :=
  allInputs.filterMap (fun i =>
    if Bank.nth b.applied i = .zoneTemp z then (Bank.nth b.inputs i).bind InputRec.current else none)

/-- The six zone readings of a scan's end (R12). -/
def SensorBus.formReadings (b : SensorBus) : Bank Reading 6 :=
  Zone.all.foldl (fun r z => Bank.put r z.idx (readingOf (b.zoneValues z))) b.readings

/-- The valid value of the input that has a map entry, if one has (R14). -/
def SensorBus.valueOf (b : SensorBus) (m : MapEntry) : Option Int :=
  match allInputs.find? (fun i => Bank.nth b.applied i = m) with
  | none => none
  | some i => (Bank.nth b.inputs i).bind InputRec.current

/-- A meter's inputs at a scan's end, when all three are mapped and VALID (R14). -/
def SensorBus.meterInputs (b : SensorBus) (m : Meter) : Option MeterInputs :=
  match b.valueOf (.meterFlow m), b.valueOf (.meterSupply m), b.valueOf (.meterReturn m) with
  | some f, some s, some r => some ⟨f, s, r⟩
  | _, _, _ => none

/-- A scan under way when the part parks reads on as a parked scan (log 14). -/
def Scan.parkedFrom (b : SensorBus) (sc : Scan) : Scan :=
  ⟨.parked, sc.toRead.filter (fun i => readBy .parked (Bank.nth b.applied i))⟩

/-! ## The scan end -/

/-- What a scan's end hands to the blocks. -/
structure ScanInput where
  readings : Bank Reading 6
  meters : Bank (Option MeterInputs) 4
  feedback : Feedback
  order : ScanOrder
  lockout : Bool
  deriving DecidableEq, Repr

/-- The zone readings judged: verdicts, then the zone states (R137, R138). -/
def Engine.superviseZones (e : Engine) (t : Tables) (readings : Bank Reading 6) : Engine :=
  (e.verdicts t readings).judgeZones t (Engine.grantScan t) readings

/-- The channels' orders as a scan end finds them. -/
def Engine.ordersNow (e : Engine) : Bank (Option Order) 6 := e.channels.map (·.order)

/-- The own work of a list of channels, each for the order it had when the scan end began. -/
def Engine.channelsWork (e : Engine) (t : Tables) (f : ScanFigures) (before : Bank (Option Order) 6)
    (cs : List ChannelNo) : Engine :=
  cs.foldl (fun e c => e.channelWork t (Engine.grantScan t) f c (Bank.nth before c)) e

/-- Something done when what falls due is taken within the scan end (log 3). -/
def whenWithin (due : DueMode) (f : Engine → Engine) (e : Engine) : Engine :=
  match due with
  | .within => f e
  | .separate => e

/-- Every meter whose hold has run out expires (R18). DESIGN CHOICE (log 35): in meter-number order. -/
def Engine.allHoldsExpire (t : Tables) (e : Engine) : Engine :=
  Meter.all.foldl (fun e m => e.holdExpires t (Engine.grantScan t) m) e

/-- Every TRAVELLING valve that has arrived stops (R119). DESIGN CHOICE (log 35): in valve-number order. -/
def Engine.allValvesArrive (t : Tables) (e : Engine) : Engine :=
  allValves.foldl (fun e v => e.valveArrives t (Engine.grantScan t) v) e

/-- What is due at an output besides OVERCURRENT: OPEN-LOAD, STALL, the end of a test (R121, R127). -/
def Engine.outputsDue (t : Tables) (e : Engine) : Engine :=
  allOutputs.foldl (fun e o => ((e.openLoadReached t o).stallReached t o).testEnds t o) e

/-- Output faults at a scan end (R121, R122, R127). DESIGN CHOICE (log 12): the OVERCURRENT of every output is taken before any OPEN-LOAD, STALL or test's end. -/
def Engine.judgeOutputs (t : Tables) (due : DueMode) (e : Engine) : Engine :=
  whenWithin due (Engine.outputsDue t) (e.overcurrents t)

/-- What is due at a valve besides its arrival: test legs, faults, drift (R119, R120, R128). DESIGN CHOICE (log 35): in valve-number order, all of one valve before the next. -/
def Engine.valvesDue (t : Tables) (e : Engine) : Engine :=
  allValves.foldl (fun e v =>
    ((((e.valveTestPasses t v).valveTestTurns t v).valveTimesOut t (Engine.grantScan t) v).valveLosesFeedback t
      (Engine.grantScan t) v).valveDrifts t v) e

/-- Whether a running equalize has reached its end (R105). -/
def Engine.equalizeOver (e : Engine) : Bool :=
  match e.mar.comp.condition with
  | .steady => false
  | .equalizing _ n => decide (n = 0)

/-- An equalize whose timer has reached 0 ends (R105). -/
def Engine.equalizeIfOver (t : Tables) (e : Engine) : Engine := if e.equalizeOver then e.equalizeEnd t else e

/-- Something done while the part is READY: its outputs are read, judged and driven in no other state (R115, R131). -/
def whenReady (f : Engine → Engine) (e : Engine) : Engine :=
  match e.part with
  | .ready => f e
  | .starting | .parked | .waking => e

/-- The zones, the channels and the regulator at a full scan's end, in the order given (R140, R144, R157, R159, R160). DESIGN CHOICE (log 3): the channels that follow the zones work in channel-number order. -/
def Engine.judgeWork (e : Engine) (t : Tables) (x : ScanInput) (f : ScanFigures) (before : Bank (Option Order) 6) : Engine :=
  let k := Engine.grantScan t
  let mean := (Bank.nth x.readings Zone.cabin.idx).mean
  let e1 := e.channelsWork t f before x.order.channelsFirst
  let e2 := e1.judgeZones t k x.readings
  let rest := allChannels.filter (fun c => !x.order.channelsFirst.contains c)
  if x.order.regulatorFirst then (e2.comfortJudge t k x.lockout mean).channelsWork t f before rest
  else (e2.channelsWork t f before rest).comfortJudge t k x.lockout mean

/-- The end of a full scan or of the waking scan: verdicts, equalize timer, meters, feedback, then the work in the order given, the outputs, and what is due within the step. DESIGN CHOICE (logs 3, 16): valve faults and drift are judged last, after the channels' own work. -/
def Engine.fullScanEnd (e : Engine) (t : Tables) (x : ScanInput) : Engine :=
  let due := x.order.due
  let before := e.ordersNow
  let e1 := (e.verdicts t x.readings).equalizeFall 1
  let (e2, heat) := e1.judgeMeters t (Engine.grantScan t) (fun m => Bank.nth x.meters m.idx)
  let e3 := whenReady (fun e => whenWithin due (Engine.allValvesArrive t) (e.readFeedback t.straps x.feedback)) e2
  let e4 := if x.order.faultsFirst then whenReady (Engine.judgeOutputs t due) e3 else e3
  let e5 := e4.judgeWork t x ⟨heat, due⟩ before
  let e6 := whenWithin due (Engine.allHoldsExpire t) e5
  let e7 := if x.order.faultsFirst then e6 else whenReady (Engine.judgeOutputs t due) e6
  let e8 := whenReady (fun e => e.driveOutputs t.straps) e7
  let e9 := whenReady (whenWithin due (fun e => (e.handOverEnds).valvesDue t)) e8
  whenWithin due (Engine.equalizeIfOver t) e9

/-! ## Parking -/

/-- The park conditions (R196). -/
def Engine.parkable (e : Engine) (save : SaveState) : Bool :=
  e.allIdle
  && (match e.crg.state with
      | .disabled | .suspended => true
      | .active _ | .held => false)
  && Zone.all.all (fun z => decide ((e.zone z).state = .normal))
  && allOutputs.all (fun o => decide ((e.output o).state ≠ .testing))
  && allValves.all (fun v => (e.valve v).test.isNone)
  && decide (save ≠ .writing)

/-- The part enters PARKED: outputs at 0, valves released, the hand-over over, meters INVALID (R21, R131, R196). -/
def Engine.enterParked (e : Engine) : Engine :=
  { e.meterAllLost with part := .parked, ost := e.ost.parked }

/-- The part enters PARKED, with the timer at 0 (R196). -/
def State.enterParked (s : State) : State :=
  { s with
    eng := s.eng.enterParked
    sbe := { s.sbe with scan := s.sbe.scan.map (Scan.parkedFrom s.sbe), parkedTime := 0 }
    cfc := { s.cfc with parkTimer := 0 } }

/-- Whether the park timer has reached a park delay that is not 0, the conditions holding (R196). -/
def State.parkDue (s : State) : Bool :=
  decide (s.eng.part = .ready ∧ s.tab.tuning.parkDelay ≠ 0 ∧ s.tab.tuning.parkDelay * 10 ≤ s.cfc.parkTimer)
  && s.eng.parkable s.cfc.save

/-- The park timer at a scan end while READY (R196). -/
def State.parkTick (s : State) : State :=
  match s.eng.part with
  | .ready =>
    { s with cfc := { s.cfc with parkTimer := if s.eng.parkable s.cfc.save then s.cfc.parkTimer + 1 else 0 } }
  | .starting | .parked | .waking => s

/-- PARKED when the timer has reached the delay (R196). -/
def State.parkIfDue (s : State) : State := if s.parkDue then s.enterParked else s

/-! ## The step -/

/-- The waking scan's end is followed by output enable (R197). -/
def wakeAfter (kind : ScanKind) (w : WakePhase) : WakePhase :=
  match kind with
  | .waking => .outputEnable
  | .full | .parked => w

/-- A scan that has read every input ends (R5, R6): a parked scan hands its readings to the zones alone. DESIGN CHOICE (log 3): the park timer judges its conditions after every other work of the scan end. -/
def State.endScan (s : State) (kind : ScanKind) (f : Feedback) (ord : ScanOrder) : State :=
  let readings := s.sbe.formReadings
  let sbe := { s.sbe with readings := readings, scan := none }
  match kind with
  | .parked => { s with eng := s.eng.superviseZones s.tab readings, sbe := sbe }
  | .full | .waking =>
    let meters := Meter.all.foldl (fun b m => Bank.put b m.idx (s.sbe.meterInputs m)) (Vector.replicate 4 none)
    let e := s.eng.fullScanEnd s.tab ⟨readings, meters, f, ord, s.cfc.lockout⟩
    let s1 := ({ s with eng := { e with wake := wakeAfter kind e.wake }, sbe := sbe }).parkTick
    match ord.due with
    | .within => s1.parkIfDue
    | .separate => s1

end Sys2Proof.Machine
end

