-- ==== Sys2Proof/Machine/Panel.lean ====
section
/-! DEFINITION. The panel link port: the character rules of R163, the lines of R164 and their replies, the two reply places. -/

namespace Sys2Proof.Machine

open Sys2Proof

/-! ## Text -/

/-- The ASCII digit of a number below 10. -/
def digit (n : Nat) : Byte := BitVec.ofNat 8 (48 + n % 10)

/-- The number of an ASCII digit. -/
def digitOf (b : Byte) : Option Nat := if 48 ≤ b.toNat ∧ b.toNat ≤ 57 then some (b.toNat - 48) else none

/-- The ASCII characters of a text of plain characters. -/
def ascii (s : String) : List Byte := s.toList.map (fun c => BitVec.ofNat 8 c.toNat)

/-- The digits of a number without leading zeros, at most `n` of them, one at least (R164). -/
def wholeDigits : Nat → Nat → List Byte
  | 0, _ => []
  | n + 1, x => if x < 10 then [digit x] else wholeDigits n (x / 10) ++ [digit x]

/-- A target in tenths, with two digits, a full stop and one digit (R164). -/
def targetText (x : Int) : List Byte :=
  let n := x.toNat
  [digit (n / 100), digit (n / 10), 0x2E, digit n]

/-- A mean in tenths as the query reply writes it; absent is "--.-" (R164). -/
def meanText : Option Int → List Byte
  | none => ascii "--.-"
  | some x =>
    let n := x.natAbs
    (if x < 0 then [0x2D] else []) ++ wholeDigits 4 (n / 10) ++ [0x2E, digit n]

/-- The mode word of the query reply (R164). -/
def modeWord : RegState → List Byte
  | .disabled => ascii "OFF"
  | .active .resting => ascii "REST"
  | .active .heating => ascii "HEAT"
  | .active .cooling => ascii "COOL"
  | .held => ascii "HOLD"
  | .suspended => ascii "FAULT"

/-- The query reply (R164). -/
def queryReply (target : Int) (mean : Option Int) (st : RegState) : List Byte :=
  ascii "T=" ++ targetText target ++ ascii " C=" ++ meanText mean ++ ascii " M=" ++ modeWord st

/-- The value in tenths of two digits, a full stop and one digit (R164). -/
def targetOfLine (cs : List Byte) : Option Int :=
  match cs with
  | [a, b, p, c] =>
    match digitOf a, digitOf b, digitOf c with
    | some x, some y, some z => if p = 0x2E then some (x * 100 + y * 10 + z : Nat) else none
    | _, _, _ => none
  | _ => none

/-- The range of the cabin target in tenths (R151). -/
def targetOk (x : Int) : Bool := decide (140 ≤ x ∧ x ≤ 300)

/-! ## Lines -/

/-- What a line asks (R164). -/
inductive PanelLine
  | target (x : Int)
  | query
  | other
  deriving DecidableEq, Repr

/-- A line read (R164): spaces and any other deviation make it malformed. -/
def readLine (cs : List Byte) : PanelLine :=
  match cs with
  | [0x51] => .query
  | 0x54 :: 0x3D :: rest =>
    match targetOfLine rest with
    | some x => .target x
    | none => .other
  | _ => .other

/-- The answer to a line: its text, and the target it leaves (R164). -/
def answerLine (cs : List Byte) (lock : Bool) (crg : Regulator) (mean : Option Int) : List Byte × Int :=
  match readLine cs with
  | .query => (queryReply crg.target mean crg.state, crg.target)
  | .other => (ascii "E", crg.target)
  | .target x =>
    if lock then (ascii "L", crg.target)
    else if targetOk x then (cs, x)
    else (ascii "E", crg.target)

/-- A reply made, ended by a carriage return: sent at once, or behind the one being sent (R163). -/
def PanelPort.reply (p : PanelPort) (text : List Byte) : PanelPort :=
  match p.sending with
  | none => { p with sending := some (text ++ [0x0D]) }
  | some _ => { p with waiting := some (text ++ [0x0D]) }

/-- The mean of the CABIN reading (R13). -/
def State.cabinMean (s : State) : Option Int := (Bank.nth s.sbe.readings Zone.cabin.idx).mean

/-- A line taken: discarded unanswered while a reply waits, otherwise answered (R163, R164). -/
def State.takeLine (s : State) (cs : List Byte) : State :=
  if s.panel.waiting.isSome then s
  else
    let a := answerLine cs s.panel.lock s.eng.crg s.cabinMean
    { s with panel := s.panel.reply a.1, eng := { s.eng with crg := { s.eng.crg with target := a.2 } } }

/-- The reply "E" to an overlong line (R163), unless a reply waits. -/
def State.rejectLine (s : State) : State :=
  if s.panel.waiting.isSome then s else { s with panel := s.panel.reply (ascii "E") }

/-- The panel's line buffer emptied and the overlong mark cleared (R163). -/
def State.emptyLine (s : State) : State := { s with panel := { s.panel with buffer := [], overlong := false } }

/-- One character received while the port takes lines (R163). -/
def State.panelChar (s : State) (b : Byte) : State :=
  if b = 0x0D then
    if s.panel.overlong then s.emptyLine.rejectLine
    else if s.panel.buffer.isEmpty then s
    else s.emptyLine.takeLine s.panel.buffer
  else if b = 0x0A then s
  else if s.panel.overlong then s
  else if s.panel.buffer.length < 16 then
    { s with panel := { s.panel with buffer := s.panel.buffer ++ [b] } }
  else { s with panel := { s.panel with overlong := true } }

/-- A run of characters received without a pause; while STARTING they are discarded (R163). -/
def State.panelChars (s : State) (bs : List Byte) : State :=
  match s.eng.part with
  | .starting => s
  | .ready | .parked | .waking => bs.foldl State.panelChar s

/-- The reply being sent has left; the waiting one follows (R163). -/
def PanelPort.sent (p : PanelPort) : PanelPort := { p with sending := p.waiting, waiting := none }

end Sys2Proof.Machine
end

