-- ==== Sys2Proof/Machine/Layouts.lean ====
section
/-! DEFINITION. The bytes of replies and frames: reply codes (R182), the record body (R189), the fields of every other reply in the order of their owners' tables and in the forms of R183, the frames with their CRC (R177, R187). Widths and codes that no rule gives come from Config (log 7). -/

namespace Sys2Proof.Machine

open Sys2Proof

/-- The value sent for a reply code (R182). -/
def ReplyCode.value : ReplyCode → Byte
  | .ok => 0x00
  | .busy => 0x01
  | .frameError => 0x02
  | .unknownRequest => 0x03
  | .badArgument => 0x04
  | .notPermitted => 0x05
  | .inUse => 0x06
  | .locked => 0x07
  | .notReady => 0x08
  | .outputFaulted => 0x09
  | .taken => 0x10
  | .ended => 0x11
  | .occupied => 0x12
  | .unavailable => 0x13
  | .idle => 0x14
  | .record => 0x15
  | .active => 0x16
  | .ending => 0x17
  | .empty => 0x18

/-- The reason byte of UNAVAILABLE (R182). -/
def Reason.value : Reason → Byte
  | .lockout => 1
  | .waking => 2
  | .comfort => 3

/-- The cause byte of a record (R189). -/
def Cause.value : Cause → Byte
  | .complete => 1
  | .halted => 2
  | .preempted => 3
  | .starved => 4
  | .time => 5
  | .sourceDepleted => 6
  | .sinkFull => 7
  | .programError => 8
  | .protection => 9
  | .zoneTrip => 10
  | .zoneBlind => 11
  | .valveFault => 12
  | .meterLost => 13

/-- The detail code of a program error (R189). -/
def ProgramDetail.value : ProgramDetail → Byte
  | .emptySlot => 1
  | .pastEnd => 2
  | .areaCrossed => 3
  | .jumpToJump => 4
  | .jumpOutOfRange => 5
  | .flagConflict => 6
  | .undefinedPath => 7
  | .rateRange => 8
  | .continuePathChange => 9

/-- The detail byte of a record (R189). -/
def Detail.value : Detail → Byte
  | .absent => 0xFF
  | .program d => d.value
  | .zone z => BitVec.ofNat 8 z.idx.val
  | .valve v => BitVec.ofNat 8 (v.val + 1)
  | .meter m => BitVec.ofNat 8 m.idx.val

/-- A slot in one byte, FF when absent (R189). -/
def slotByte : Option SlotNo → Byte
  | none => 0xFF
  | some s => BitVec.ofNat 8 s.val

/-- A heat in four bytes, all ones when absent (R183, R189). -/
def heatBytes : Option Nat → List Byte
  | none => [0xFF, 0xFF, 0xFF, 0xFF]
  | some n => be32 (recordCap n)

/-- The notes byte of a record (R189). -/
def notesByte (n : Notes) : Byte := BitVec.ofNat 8 (n.shortSeen.toNat + 2 * n.estimated.toNat)

/-- The 25 bytes of a record body (R189). -/
def recordBytes (r : Record) : List Byte :=
  [BitVec.ofNat 8 r.channel.val] ++ be16 r.tag ++
  [BitVec.ofNat 8 r.cls.val, r.ending.cause.value, r.ending.detail.value, slotByte r.lastSlot, slotByte r.ending.failing]
  ++ heatBytes r.remaining ++ be32 (recordCap r.delivered) ++ be32 (recordCap r.runTime)
  ++ [notesByte r.notes] ++ be32 (recordCap r.notes.overrun)

/-- The report kind byte (R189). -/
def ReportBody.kindByte : ReportBody → Byte
  | .completion _ => 1
  | .progress _ => 2
  | .zone _ => 3
  | .output _ => 4

/-! ## Fields (R183) -/

/-- The form a field of a reply is sent in: a number up to a largest, a temperature, another signed quantity, one of some names (a flag is one of two), bytes that a rule gives. An `Option` is a field that can be absent. -/
inductive FieldForm
  | number (largest value : Nat)
  | maybeNumber (largest : Nat) (value : Option Nat)
  | temperature (value : Option Int)
  | maybeSigned (bound : Nat) (value : Option Int)
  | name (names which : Nat)
  | maybeName (names : Nat) (which : Option Nat)
  | fixed (bytes : List Byte)
  deriving DecidableEq, Repr

/-- A named field of a reply. -/
structure Field where
  name : String
  form : FieldForm
  deriving DecidableEq, Repr

/-- The fewest whole bytes that hold a number. -/
def bytesFor (n : Nat) : Nat := if n < 256 then 1 else if n < 65536 then 2 else if n < 16777216 then 3 else 4

/-- A number in some bytes, high byte first (R183). -/
def beBytes (width n : Nat) : List Byte := (List.range width).reverse.map (fun k => BitVec.ofNat 8 (n / 256 ^ k))

/-- The all-ones value of a width, which marks an absent field (R183). -/
def absentBytes (width : Nat) : List Byte := List.replicate width 0xFF

/-- A number that is not the all-ones value of a width. -/
def presentCode (width n : Nat) : Nat := n % (256 ^ width - 1)

/-- A temperature: signed tenths in two bytes, 8000 hexadecimal when absent (R183). -/
def temperatureBytes : Option Int → List Byte
  | none => [0x80, 0x00]
  | some v => be16 (v % 65536).toNat

/-- The bytes of a field (R183). A number stops at the highest its bytes carry, short of the mark of absence where it can be absent; only below 0 is the number sent for a quantity that is no temperature left open (log 7). -/
def Field.bytes (f : Field) : List Byte :=
  let width (least : Nat) := bytesFor least + Config.wider f.name
  match f.form with
  | .number largest n => let w := width largest; beBytes w (min (256 ^ w - 1) n)
  | .maybeNumber largest none => absentBytes (width (largest + 1))
  | .maybeNumber largest (some n) => let w := width (largest + 1); beBytes w (min (256 ^ w - 2) n)
  | .temperature v => temperatureBytes v
  | .maybeSigned bound none => absentBytes (width (2 * bound + 2))
  | .maybeSigned bound (some (.ofNat n)) => let w := width (2 * bound + 2); beBytes w (min (256 ^ w - 2) n)
  | .maybeSigned bound (some (.negSucc n)) =>
    let w := width (2 * bound + 2)
    beBytes w (presentCode w (Config.negativeCode f.name (n + 1)))
  | .name names i => beBytes (width names) (Config.nameCode f.name i)
  | .maybeName names none => absentBytes (width names)
  | .maybeName names (some i) => let w := width names; beBytes w (presentCode w (Config.nameCode f.name i))
  | .fixed bs => bs

/-- The bytes of fields in turn. -/
def fieldBytes (fs : List Field) : List Byte := (fs.map Field.bytes).flatten

/-- A flag: one of the two names clear and set. -/
def flagField (name : String) (b : Bool) : Field := ⟨name, .name 2 b.toNat⟩

/-- A list whose length varies: the mark of its length, then the fields of each entry. -/
def listFields (name : String) (entries : List (List Field)) : List Field :=
  ⟨name, .fixed (Config.listMark name entries.length)⟩ :: entries.flatten

/-- A text with its length before it (R184). -/
def textBytes (bs : List Byte) : List Byte := BitVec.ofNat 8 bs.length :: bs

/-! ## Names counted in the order of their tables -/

def PartState.place : PartState → Nat
  | .starting => 0 | .ready => 1 | .parked => 2 | .waking => 3

def ImageStatus.place : ImageStatus → Nat
  | .valid => 0 | .bad => 1 | .notLoaded => 2

def SaveState.place : SaveState → Nat
  | .none => 0 | .writing => 1 | .done => 2 | .failed => 3

def ChannelState.place : ChannelState → Nat
  | .idle => 0 | .waiting => 1 | .setting => 2 | .running => 3 | .ending => 4

def ZoneState.place : ZoneState → Nat
  | .normal => 0 | .highTrip => 1 | .lowTrip => 2 | .blind => 3

def MeterState.place : MeterState → Nat
  | .valid => 0 | .holding => 1 | .handOver => 2 | .invalid => 3

def OutputState.place : OutputState → Nat
  | .inService => 0 | .faulted => 1 | .testing => 2

def OutputFault.place : OutputFault → Nat
  | .openLoad => 0 | .overcurrent => 1 | .stall => 2

def OutputKind.place : OutputKind → Nat
  | .pump => 0 | .compressor => 1 | .chiller => 2 | .heater => 3 | .fan => 4

def ValveState.place : ValveState → Nat
  | .atPosition => 0 | .travelling => 1 | .faulted => 2

def ValveFault.place : ValveFault → Nat
  | .travelTimeout => 0 | .feedbackLost => 1

def HandOverPart.place : HandOverPart → Nat
  | .outgoing => 0 | .incoming => 1

def Circuit.place : Circuit → Nat
  | .cool => 0 | .heat => 1

def Direction.place : Direction → Nat
  | .resting => 0 | .heating => 1 | .cooling => 2

def RegState.place : RegState → Nat
  | .disabled => 0 | .active _ => 1 | .held => 2 | .suspended => 3

def RegState.direction : RegState → Option Direction
  | .active d => some d
  | .disabled | .held | .suspended => none

def ReserveOutcome.place : ReserveOutcome → Nat
  | .none => 0 | .pending => 1 | .started => 2 | .notStarted => 3 | .ended _ _ => 4

def InputStatus.place : InputStatus → Nat
  | .valid => 0 | .lost => 1

/-! ## Fields that several replies share -/

/-- The mode of the part (R38). -/
def modeField (m : Mode) : Field := ⟨"mode", .name 2 (match m with | .operating => 0 | .commissioning => 1)⟩

/-- The three locks (R40). -/
def lockFields (l : Locks) : List Field :=
  [flagField "LIMIT-LOCK" l.limit, flagField "PATH-LOCK" l.path, flagField "RESERVE-LOCK" l.reserve]

/-- The regulator state and its direction (R152, R154). -/
def regulatorFields (r : RegState) : List Field :=
  [⟨"regulator state", .name 4 r.place⟩, ⟨"direction", .maybeName 3 (r.direction.map Direction.place)⟩]

/-- The five settings (R153). -/
def settingFields (c : ComfortSettings) : List Field :=
  [⟨"heat path", .maybeNumber 23 (c.heatPath.map (·.val))⟩, ⟨"cool path", .maybeNumber 23 (c.coolPath.map (·.val))⟩,
   ⟨"deadband", .number 30 c.deadband⟩, ⟨"comfort gain", .number 200 c.gain⟩, ⟨"comfort wait limit", .number 1800 c.waitLimit⟩]

/-- State and direction, the settings and the target (R154). -/
def comfortFields (c : ComfortInfo) : List Field :=
  regulatorFields c.state ++ settingFields c.settings ++ [⟨"target", .temperature (some c.target)⟩]

/-- A role by its name. -/
def roleField (r : Role) : Field := ⟨"role", .name 8 r.idx.val⟩

/-- Roles with an amount on each. -/
def roleFields (name : String) (largest : Nat) (x : Role × Nat) : List Field := [roleField x.1, ⟨name, .number largest x.2⟩]

/-- A valve, 1 to 6, with its position. -/
def valveFields (x : ValveNo × Nat) : List Field := [⟨"valve", .number 6 (x.1.val + 1)⟩, ⟨"position", .number 100 x.2⟩]

/-- A slot that can be absent. -/
def slotField (name : String) (s : Option SlotNo) : Field := ⟨name, .maybeNumber 95 (s.map (·.val))⟩

/-- A heat in tenths of a kilojoule. -/
def heatField (name : String) (n : Nat) : Field := ⟨name, .number 0xFFFFFFFE n⟩

/-- A detail: a zone or a valve by its number, a program error or a meter by its name (R82, R189). -/
def Detail.form : Detail → FieldForm
  | .absent => .maybeName 14 none
  | .program d => .maybeName 14 (some d.value.toNat)
  | .zone z => .maybeNumber 5 (some z.idx.val)
  | .valve v => .maybeNumber 6 (some (v.val + 1))
  | .meter m => .maybeName 14 (some m.idx.val)

/-- Cause, detail and failing slot of an ending, each absent where there is none (R80 to R82). -/
def endingFields (e : Option Ending) : List Field :=
  [⟨"cause", .maybeName 14 (e.map (·.cause.value.toNat))⟩,
   ⟨"detail", (e.elim Detail.absent (fun x => x.detail)).form⟩,
   slotField "failing slot" (e.bind (·.failing))]

/-- The notes set (R83). -/
def noteFields (n : Notes) : List Field :=
  [flagField "SHORT-SEEN" n.shortSeen, flagField "ESTIMATED" n.estimated, heatField "OVERRUN" n.overrun]

/-- The role of a map entry and the zone or meter it names (R2). -/
def mapFields : MapEntry → List Field
  | .unused => [⟨"input role", .name 5 0⟩]
  | .zoneTemp z => [⟨"input role", .name 5 1⟩, ⟨"zone", .number 5 z.idx.val⟩]
  | .meterFlow m => [⟨"input role", .name 5 2⟩, ⟨"meter", .name 4 m.idx.val⟩]
  | .meterSupply m => [⟨"input role", .name 5 3⟩, ⟨"meter", .name 4 m.idx.val⟩]
  | .meterReturn m => [⟨"input role", .name 5 4⟩, ⟨"meter", .name 4 m.idx.val⟩]

/-- The value of an input: a flow as a number of tenths, any other as a temperature (R2), the one it had until a map change is applied (R4). -/
def InputShown.value (x : InputShown) : Field :=
  let v := x.record.bind (·.value)
  if x.isFlow then ⟨"flow", .maybeNumber 2000 (v.map Int.toNat)⟩ else ⟨"input value", .temperature v⟩

/-- An input's status and value (R22), absent for an input that the map does not give. -/
def InputShown.fields (x : InputShown) : List Field :=
  [⟨"input status", .maybeName 2 (x.record.map (·.status.place))⟩, x.value]

/-- An input's status, value and miss count (R22). -/
def InputShown.row (x : InputShown) : List Field :=
  x.fields ++ [⟨"miss count", .maybeNumber 3 (x.record.map (·.misses))⟩]

/-- A map entry with what its input shows: an UNUSED position has neither status nor value (R2, R22). -/
def mapRow (x : MapEntry × InputShown) : List Field :=
  match x.1 with
  | .unused => mapFields x.1
  | .zoneTemp _ | .meterFlow _ | .meterSupply _ | .meterReturn _ => mapFields x.1 ++ x.2.row

/-- A reserve outcome with its cause and delivered heat, absent but for ENDED (R147). -/
def outcomeFields (o : ReserveOutcome) : List Field :=
  let row (c : Option Cause) (d : Option Nat) : List Field :=
    [⟨"reserve outcome", .name 5 o.place⟩, ⟨"cause", .maybeName 14 (c.map (·.value.toNat))⟩,
     ⟨"delivered", .maybeNumber 0xFFFFFFFE d⟩]
  match o with
  | .none | .pending | .started | .notStarted => row none none
  | .ended c d => row (some c) (some d)

/-! ## Tables -/

/-- Kind and fields of a path entry in the order of R23, as READ PATH returns them and CHECKSUM takes them (R26, R47). -/
def pathFields : Option PathEntry → List Field
  | none => [⟨"path kind", .name 2 0⟩]
  | some p =>
    [⟨"path kind", .name 2 1⟩, ⟨"source zone", .number 5 p.source.idx.val⟩, ⟨"sink zone", .number 3 p.sink.idx.val⟩,
     ⟨"meter", .name 4 p.meter.idx.val⟩,
     ⟨"meter sense", .name 2 (match p.sense with | .positive => 0 | .negative => 1)⟩,
     ⟨"capacity", .number 1500 p.capacity⟩,
     ⟨"regime", .name 2 (match p.regime with | .passive => 0 | .pumped => 1)⟩,
     ⟨"compressor mode", .name 3 (match p.mode with | .none => 0 | .cool => 1 | .heat => 2)⟩]
    ++ listFields "role list" (p.roles.map (roleFields "share" 100)) ++ listFields "valve list" (p.valves.map valveFields)
    ++ [⟨"gain", .number 100 p.gain⟩, ⟨"lead offset", .number 30 p.leadOffset⟩, ⟨"run-down time", .number 30 p.runDown⟩]

/-- What READ PATH returns: the entry, its effective lead offset, the two conditions (R26). -/
def PathInfo.fields (p : PathInfo) : List Field :=
  pathFields p.entry ++ (p.effectiveLead.map (fun n => (⟨"effective lead offset", .number 30 n⟩ : Field))).toList
  ++ [flagField "in use" p.inUse, flagField "write permitted" p.writable]

/-- A limit, where the zone has it (R1). -/
def limitField (name : String) (present : Bool) (v : Option Int) : List Field :=
  if present then [⟨name, .temperature v⟩] else []

/-- A set of classes. -/
def classField (name : String) (c : ClassSet) : Field := ⟨name, .name 8 (c.one.toNat + 2 * c.two.toNat + 4 * c.three.toNat)⟩

/-- The limit, access and reserve groups of a zone in the order of R132, as READ ZONE returns them and CHECKSUM takes them (R47, R135). -/
def zoneFields (z : Zone) (e : ZoneEntry) : List Field :=
  let has := limitsPresent z
  limitField "soft low" has.1 e.limits.softLow ++ limitField "soft high" has.2.1 e.limits.softHigh
  ++ limitField "hard low" has.2.2.1 e.limits.hardLow ++ limitField "hard high" has.2.2.2 e.limits.hardHigh
  ++ [⟨"hysteresis", .number 100 e.limits.hysteresis.toNat⟩,
      classField "source classes" e.sourceClasses, classField "sink classes" e.sinkClasses,
      ⟨"reserve channel", .maybeNumber 5 (e.reserve.map (·.channel.val))⟩,
      slotField "reserve first slot" (e.reserve.map (·.slot))]

/-- A zone's groups and its input list (R22, R135). -/
def ZoneTableInfo.fields (z : ZoneTableInfo) : List Field :=
  zoneFields z.zone z.entry
  ++ listFields "input list" (z.inputs.map (fun x => ⟨"input", .number 31 x.1.val⟩ :: x.2.row))

/-- The trip record of a zone (R147). -/
def TripRecord.fields (r : TripRecord) : List Field :=
  [⟨"trigger state", .maybeName 4 (r.trigger.map ZoneState.place)⟩, ⟨"hottest at trigger", .temperature r.hottest⟩,
   ⟨"coldest at trigger", .temperature r.coldest⟩] ++ outcomeFields r.outcome

/-- What READ ZONE returns (R22, R135). -/
def ZoneInfo.fields (z : ZoneInfo) : List Field :=
  z.table.fields
  ++ [⟨"valid count", .number 4 z.reading.count⟩, ⟨"hottest", .temperature z.reading.hottest⟩,
      ⟨"coldest", .temperature z.reading.coldest⟩, ⟨"mean", .temperature z.reading.mean⟩,
      ⟨"zone state", .name 4 z.state.place⟩, flagField "DEPLETED" z.depleted, flagField "FULL" z.full,
      flagField "reserve pending" z.pending]
  ++ z.trip.fields

/-- The tuning set in the order of R194, and AUTO-RELEASE. -/
def tuningFields (t : Tuning) (auto : Bool) : List Field :=
  [⟨"prefetch margin", .number 2000 t.prefetchMargin⟩, ⟨"meter hold time", .number 30 t.meterHold⟩,
   ⟨"valve timeout", .number 60 t.valveTimeout⟩, ⟨"equalize time", .number 180 t.equalizeTime⟩,
   ⟨"park delay", .number 3600 t.parkDelay⟩, ⟨"lead threshold", .number 1500 t.leadThreshold⟩,
   ⟨"lead time", .number 30 t.leadTime⟩, ⟨"coolant constant", .number 42 t.coolant⟩,
   ⟨"hand-over time", .number 10 t.handOverTime⟩, flagField "KEEP" t.keep, flagField "AUTO-RELEASE" auto]

/-! ## Status and orders -/

/-- What IDENTIFY returns, in turn (R184). -/
def Identity.fields (i : Identity) : List Field :=
  [⟨"device code", .fixed (be16 i.device.toNat)⟩, ⟨"family", .fixed (textBytes i.family)⟩,
   ⟨"part", .fixed (textBytes i.part)⟩, ⟨"design revision", .fixed [i.revision]⟩]
  ++ (["channels", "slots", "paths", "zones", "sensor inputs", "outputs", "valves"].zip i.counts).map
      (fun x => ⟨x.1, .number 96 x.2⟩)
  ++ [flagField "LOAD" i.straps.load, flagField "BAUD" i.straps.baud, flagField "SPARE" i.straps.spare]

/-- A channel in READ STATUS (R185). -/
def ChannelStatus.fields (c : ChannelStatus) : List Field :=
  [⟨"channel state", .name 5 c.state.place⟩, ⟨"class", .maybeNumber 3 (c.cls.map (·.val))⟩,
   flagField "record queued" c.recordQueued, flagField "meter held" c.meterHeld]

/-- What READ STATUS returns, in the order of R185. -/
def Status.fields (s : Status) : List Field :=
  [⟨"part state", .name 4 s.part.place⟩, flagField "lockout" s.lockout, modeField s.mode,
   ⟨"image status", .name 3 s.imageStatus.place⟩, ⟨"save state", .name 4 s.save.place⟩,
   ⟨"queue length", .number 27 s.queueLength⟩]
  ++ (s.channels.map ChannelStatus.fields).flatten ++ s.zones.map (fun z => ⟨"zone state", .name 4 z.place⟩)
  ++ regulatorFields s.comfort ++ [flagField "attention" s.attention]

/-- The flags of a copy in the order of R188. -/
def flagFields (f : SegFlags) : List Field :=
  [flagField "CONTINUE" f.continue_, flagField "NEXT" f.next, flagField "SHORT-OK" f.shortOk,
   flagField "PROGRESS" f.progress, flagField "MEASURE" f.measure]

/-- A copy with its slot and fields (R28, R37). -/
def Copy.fields (x : Copy) : List Field :=
  [slotField "slot" x.slot, ⟨"path", .number 23 x.path.val⟩, ⟨"quantity", .maybeNumber 65000 x.quantity⟩,
   ⟨"target rate", .number 1500 x.rate⟩, ⟨"time limit", .number 7200 x.timeLimit⟩, ⟨"label", .number 255 x.label.val⟩]
  ++ flagFields x.flags

/-- The ending purpose with its cause (R48, R80). -/
def purposeFields (p : Option Purpose) : List Field :=
  let row (which : Option Nat) (c : Option Cause) : List Field :=
    [⟨"ending purpose", .maybeName 2 which⟩, ⟨"cause", .maybeName 14 (c.map (·.value.toNat))⟩]
  match p with
  | none => row none none
  | some .transition => row (some 0) none
  | some (.endWith e) => row (some 1) (some e.cause)

/-- The snapshot of QUERY CHANNEL, in the order of R80. -/
def Snapshot.fields (s : Snapshot) : List Field :=
  ⟨"channel state", .name 5 s.state.place⟩ :: purposeFields s.purpose
  ++ [⟨"order tag", .number 65535 s.tag⟩, ⟨"class", .number 3 s.cls.val⟩, slotField "first slot" s.firstSlot]
  ++ s.copy.fields ++ [slotField "previous slot" s.previous, slotField "prefetched slot" s.prefetchedSlot]
  ++ endingFields s.failure
  ++ [⟨"remaining heat", .maybeNumber 0xFFFFFFFE s.remaining⟩, heatField "carry-over" s.carry,
      heatField "delivered" s.delivered, ⟨"segment run time", .number 0xFFFFFFFE s.segTime⟩,
      ⟨"order run time", .number 0xFFFFFFFE s.orderTime⟩, ⟨"wait timer", .number 0xFFFFFFFE s.waitTimer⟩,
      ⟨"wait limit", .number 1800 s.waitLimit⟩]
  ++ listFields "demands" (s.demands.map (roleFields "demand" 1000)) ++ [flagField "meter held" s.meterHeld]
  ++ noteFields s.notes

/-! ## Movers -/

/-- A present output in the order of R130. -/
def OutputInfo.fields (o : OutputInfo) : List Field :=
  [⟨"output kind", .name 5 o.kind.place⟩, ⟨"role or SPARE", .name 9 ((o.role.map (·.idx.val)).getD 8)⟩,
   ⟨"output state", .name 3 o.state.place⟩, ⟨"fault kind", .maybeName 3 (o.fault.map OutputFault.place)⟩,
   ⟨"target", .number 1000 o.target⟩, ⟨"level", .number 1000 o.level⟩, ⟨"load current", .number 65535 o.current⟩,
   ⟨"speed", .maybeNumber 65535 o.speed⟩, ⟨"test timer", .maybeNumber 20 o.testTimer⟩,
   ⟨"hand-over part", .maybeName 2 (o.handOver.map (fun x => x.1.place))⟩,
   ⟨"hand-over time left", .maybeNumber 100 (o.handOver.map (·.2))⟩]

/-- A valve in the order of R130. -/
def ValveInfo.fields (v : ValveInfo) : List Field :=
  [⟨"valve state", .name 3 v.state.place⟩, ⟨"valve fault", .maybeName 2 (v.fault.map ValveFault.place)⟩,
   flagField "test" v.test, ⟨"commanded position", .maybeNumber 100 v.commanded⟩,
   ⟨"feedback position", .maybeNumber 100 v.feedback⟩, ⟨"travel time left", .maybeNumber 600 v.travelLeft⟩]

/-- The role map: each role's output, 1 to 9 (R116). -/
def roleMapFields (m : Bank OutputNo 8) : List Field :=
  m.toList.map (fun o => ⟨"output", .number 9 (o.val + 1)⟩)

/-- A wait reason with the channel or valve it names, by its number, or the role, by its name (R100). -/
def reasonFields (w : Option WaitReason) : List Field :=
  let row (which : Option Nat) (of_ : FieldForm) : List Field :=
    [⟨"wait reason", .maybeName 8 which⟩, ⟨"wait reason of", of_⟩]
  let channel (c : ChannelNo) : FieldForm := .maybeNumber 5 (some c.val)
  let valve (v : ValveNo) : FieldForm := .maybeNumber 6 (some (v.val + 1))
  let role (r : Role) : FieldForm := .maybeName 8 (some r.idx.val)
  let nothing : FieldForm := .maybeName 8 none
  match w with
  | none => row none nothing
  | some (.blocked c) => row (some 0) (channel c)
  | some (.outputUnavailable r) => row (some 1) (role r)
  | some .compressorEqualizing => row (some 2) nothing
  | some .compressorMode => row (some 3) nothing
  | some (.shareFull r) => row (some 4) (role r)
  | some .chillerHeld => row (some 5) nothing
  | some (.valveFaulted v) => row (some 6) (valve v)
  | some (.valvePosition v) => row (some 7) (valve v)

/-- A set of the claim list (R113). -/
def ClaimSet.fields (s : ClaimSet) : List Field :=
  [⟨"channel", .number 5 s.channel.val⟩, ⟨"class", .number 3 s.cls.val⟩, ⟨"path", .number 23 s.path.val⟩]
  ++ listFields "role entries" (s.roles.map (roleFields "share" 100)) ++ listFields "valve entries" (s.valves.map valveFields)
  ++ reasonFields s.reason

/-- A holder (R113). -/
def Holder.fields (h : Holder) : List Field :=
  [⟨"channel", .number 5 h.channel.val⟩, ⟨"class", .number 3 h.cls.val⟩, ⟨"amount", .number 100 h.amount⟩]

/-- The compressor record (R113). -/
def Compressor.fields (c : Compressor) : List Field :=
  let row (condition : Nat) (target : Option Circuit) (left : Option Nat) : List Field :=
    [⟨"mode", .name 3 ((c.mode.map (fun m => m.place + 1)).getD 0)⟩, ⟨"condition", .name 2 condition⟩,
     ⟨"target mode", .maybeName 2 (target.map Circuit.place)⟩, ⟨"equalize time left", .maybeNumber 1800 left⟩]
  match c.condition with
  | .steady => row 0 none none
  | .equalizing m n => row 1 (some m) (some n)

/-- A meter (R22). -/
def MeterInfo.fields (m : MeterInfo) : List Field :=
  [⟨"meter state", .name 4 m.state.place⟩, ⟨"rate", .maybeSigned 26600 m.rate⟩, ⟨"held rate", .maybeSigned 26600 m.held⟩,
   ⟨"hold count", .maybeNumber 300 m.holdCount⟩]
  ++ m.flow.fields ++ m.supply.fields ++ m.return_.fields

/-- What READ MOVERS returns: output stage (R130), arbiter (R113), meters (R22), in the order in which R183 names their owners. -/
def Movers.fields (m : Movers) : List Field :=
  (m.outputs.map OutputInfo.fields).flatten ++ (m.valves.map ValveInfo.fields).flatten ++ roleMapFields m.roleMap
  ++ listFields "claim list" (m.claims.map ClaimSet.fields)
  ++ (m.roleHolders.map (fun x => listFields "holders" (x.2.map Holder.fields))).flatten
  ++ (m.valveHolders.map (fun x => listFields "holders" (x.2.map Holder.fields))).flatten
  ++ [⟨"COMPRESSOR shares", .number 100 m.compressorShares⟩, ⟨"HEATER shares", .number 100 m.heaterShares⟩]
  ++ listFields "grant order" (m.grantOrder.map (fun c => [⟨"channel", .number 5 c.val⟩]))
  ++ m.compressor.fields ++ (m.meters.map MeterInfo.fields).flatten

/-! ## Reports -/

/-- The fields of a report after its kind, its count last (R170, R171); a completion record is its record body (R189). -/
def Report.fields (r : Report) : List Field :=
  let count (name : String) : Field := ⟨name, .number 255 r.count⟩
  match r.body with
  | .completion x => [⟨"record", .fixed (recordBytes x)⟩]
  | .progress n =>
    [⟨"channel", .number 5 n.channel.val⟩, ⟨"order tag", .number 65535 n.tag⟩, slotField "slot" n.slot,
     ⟨"label", .number 255 n.label.val⟩, heatField "delivered so far" n.delivered, count "missed count"]
  | .zone z =>
    [⟨"zone", .number 5 z.zone.idx.val⟩, ⟨"trigger state", .maybeName 4 (z.trigger.map ZoneState.place)⟩,
     ⟨"state now", .name 4 z.stateNow.place⟩, ⟨"hottest at trigger", .temperature z.hottest⟩,
     ⟨"coldest at trigger", .temperature z.coldest⟩] ++ outcomeFields z.outcome ++ [count "change count"]
  | .output o =>
    [⟨"output", .number 9 (o.output.val + 1)⟩, ⟨"role served", .maybeName 8 (o.role.map (·.idx.val))⟩,
     ⟨"fault kind", .maybeName 3 (o.fault.map OutputFault.place)⟩, ⟨"state now", .name 3 o.stateNow.place⟩,
     count "change count"]

/-- What FETCH REPORT returns: the report kind byte, the report, the number of reports left (R172, R189). -/
def reportFields (r : Report) (left : Nat) : List Field :=
  ⟨"report kind", .fixed [r.body.kindByte]⟩ :: r.fields ++ [⟨"reports left", .number 26 left⟩]

/-! ## Reply bodies and frames -/

/-- The fields that follow the reply code (R183, R188, R189). DESIGN CHOICE (log 7): what no table of an owner's chapter orders comes in the order in which the rules name it, so a path window (R44) before the three locks (R40). -/
def ReplyBody.fields : ReplyBody → List Field
  | .none => []
  | .identity i => i.fields
  | .status s => s.fields
  | .record r => [⟨"record", .fixed (recordBytes r)⟩]
  | .unavailable r => [⟨"reason", .fixed [r.value]⟩]
  | .snapshot s => s.fields
  | .report r left => reportFields r left
  | .segments first count segs =>
    [⟨"segments", .fixed ([BitVec.ofNat 8 first, BitVec.ofNat 8 count] ++ (segs.map segmentBytes).flatten)⟩]
  | .path p => p.fields
  | .zoneTable z => z.fields
  | .zone z => z.fields
  | .sensorMap es => (es.map mapRow).flatten
  | .checksum crc count m l =>
    [⟨"CRC", .fixed (be16 crc.toNat)⟩, ⟨"items", .number 96 count⟩, modeField m] ++ lockFields l
  | .movers m => m.fields
  | .roleMap m => roleMapFields m
  | .cabinTarget target state mean =>
    ⟨"target", .temperature (some target)⟩ :: regulatorFields state ++ [⟨"CABIN mean", .temperature mean⟩]
  | .comfort c => comfortFields c
  | .panelLock lock c => flagField "panel lock" lock :: comfortFields c
  | .tuning t auto => tuningFields t auto
  | .locks ls => lockFields ls
  | .window w l =>
    [⟨"first entry", .maybeNumber 23 (w.map (fun x => x.1.val))⟩, ⟨"last entry", .maybeNumber 23 (w.map (fun x => x.2.val))⟩]
    ++ lockFields l

/-- The body of a reply: the reply code, then its fields (R179), never more than 1,024 bytes (R187): the widths that Config leaves free go no further than that (log 7). -/
def TxReply.body_ (r : TxReply) : List Byte := (r.code.value :: fieldBytes r.body.fields).take 1024

/-- A reply frame: start byte, length in two bytes, kind, sequence number, body, CRC high byte first (R177, R187). -/
def TxReply.frame (r : TxReply) : List Byte :=
  let inner := be16 r.body_.length ++ [r.kind, r.seq] ++ r.body_
  let c := crc16 inner
  0xA5 :: inner ++ be16 c.toNat

/-- What the CRC of a request frame runs over: length, kind, sequence number, body (R177, R187). -/
def requestInner (kind seq : Byte) (body : List Byte) : List Byte := [BitVec.ofNat 8 body.length, kind, seq] ++ body

/-- A request frame of a kind, a sequence number and a body (R187). -/
def requestFrame (kind seq : Byte) (body : List Byte) : List Byte :=
  0xA5 :: requestInner kind seq body ++ be16 (crc16 (requestInner kind seq body)).toNat

end Sys2Proof.Machine
end

