-- ==== Sys2Proof/Machine/Link.lean ====
section
/-! DEFINITION. The system link port: the receiver (R178), taking and answering a request (R179 to R181), replies and the transmitter (R180), and the soft reset whose effects follow a RESET's reply (R198). -/

namespace Sys2Proof.Machine

open Sys2Proof

/-- What a step answers. -/
abbrev Result := Host.Outcome State Fault Refusal

/-! ## Replies -/

/-- What a block answers a request with: the state after its effects, the reply code and body, and whether a reset follows the reply. -/
structure Answer where
  state : State
  code : ReplyCode
  body : ReplyBody
  resets : Bool
  deriving DecidableEq, Repr

/-- A reply code alone (R179). -/
def State.says (s : State) (c : ReplyCode) : Answer := ⟨s, c, .none, false⟩

/-- A reply code with a body. -/
def State.gives (s : State) (c : ReplyCode) (b : ReplyBody) : Answer := ⟨s, c, b, false⟩

/-- The kind of a reply: the request's plus 80 hexadecimal (R179), or 80 itself for a kind of 80 or above (R179, R180). -/
def replyKind (kind : Byte) : Byte := if kind.toNat < 0x80 then kind + 0x80 else 0x80

/-- A reply given to the transmitter: sent at once, or behind the one being sent (R180). -/
def LinkPort.transmit (l : LinkPort) (r : TxReply) : LinkPort :=
  match l.sending with
  | none => { l with sending := some r }
  | some _ => { l with waiting := some r }

/-- The port changed. -/
def State.putLink (s : State) (l : LinkPort) : State := { s with link := l }

/-- A BUSY or FRAME-ERROR reply, which is not made while a reply waits (R180). -/
def State.errorReply (s : State) (kind seq : Byte) (c : ReplyCode) : State :=
  if s.link.waiting.isSome then s
  else s.putLink (s.link.transmit ⟨kind, seq, c, .none, false, false⟩)

/-! ## Taking a request -/

/-- A frame with a matching CRC has completed: the port is HUNTING, and a PARKED part wakes (R178, R181). -/
def State.frameComplete (s : State) : State :=
  { s with link := { s.link with rx := .hunting }, eng := s.eng.wakeUp }

/-- The slot TAKEN and the park timer back at 0 (R180, R196). -/
def State.takeSlot (s : State) : State :=
  { s with link := { s.link with slot := .taken }, cfc := { s.cfc with parkTimer := 0 } }

/-- The kinds answered while STARTING: IDENTIFY and READ STATUS (R181). -/
def answeredStarting (kind : Byte) : Bool := kind = 0x01 || kind = 0x02

/-- A request judged: NOT-READY while STARTING, BAD-ARGUMENT for a body whose length does not fit, otherwise its owner's answer (R181). -/
def State.judgeRequest (s : State) (kind : Byte) (fits : Bool) (owner : State → Answer) : Answer :=
  if s.eng.part = .starting ∧ answeredStarting kind = false then s.says .notReady
  else if fits then owner s
  else s.says .badArgument

/-- The answer of a taken request handed to the transmitter (R179, R180). -/
def Answer.sent (a : Answer) (kind seq : Byte) : State :=
  a.state.putLink (a.state.link.transmit ⟨replyKind kind, seq, a.code, a.body, true, a.resets⟩)

/-- A completed frame with a matching CRC: BUSY, discarded, or taken and judged (R180, R181). -/
def State.frameTaken (s : State) (kind seq : Byte) (judge : State → Answer) : State :=
  let s1 := s.frameComplete
  match s1.link.slot with
  | .taken => s1.errorReply (replyKind kind) seq .busy
  | .free =>
    if s1.link.waiting.isSome then s1
    else (judge s1.takeSlot).sent kind seq

/-- Something that happens only while the part runs (R190). -/
def State.whileRunning (s : State) (f : State → State) : State :=
  match s.run with
  | .running => f s
  | .heldInReset | .noSupply => s

/-! ## The receiver (R178) -/

/-- What a received byte brings: nothing yet, a frame that fails, or a completed frame with a matching CRC. -/
inductive RxEvent
  | none
  | failed
  | complete (kind seq : Byte) (body : List Byte)
  deriving DecidableEq, Repr

/-- A frame after its start byte, from its length to its CRC, judged: a matching CRC and no damaged byte make it complete (R177, R178). -/
def judgeFrame (len : Nat) (bytes : List Byte) (damaged : Bool) : RxEvent :=
  match bytes with
  | _ :: kind :: seq :: rest =>
    if damaged = false ∧ be16 (crc16 (bytes.take (len + 3))).toNat = rest.drop len then .complete kind seq (rest.take len)
    else .failed
  | _ => .failed

/-- The receiver with the bytes that have come after a start byte: length, kind, sequence number, body and CRC in turn; a length above 120 ends the frame at once (R178). -/
def RxState.of (bytes : List Byte) (damaged : Bool) : RxState × RxEvent :=
  match bytes with
  | [] => (.receiving [] damaged, .none)
  | len :: _ =>
    if 120 < len.toNat then (.hunting, .failed)
    else if bytes.length < len.toNat + 5 then (.receiving bytes damaged, .none)
    else (.hunting, judgeFrame len.toNat bytes damaged)

/-- One received byte (R178): in HUNTING an undamaged A5 starts a frame and every other byte is discarded; in RECEIVING the byte is the next of the frame, a damaged one too. -/
def RxState.take (rx : RxState) (x : RxByte) : RxState × RxEvent :=
  match rx with
  | .hunting => if x.value = 0xA5 ∧ x.damaged = false then (.receiving [] false, .none) else (.hunting, .none)
  | .receiving bytes damaged => RxState.of (bytes ++ [x.value]) (damaged || x.damaged)

/-- Undamaged bytes. -/
def goodBytes (bs : List Byte) : List RxByte := bs.map (⟨·, false⟩)

/-- The bytes of a frame that are still to come, when the receiver may hold its first ones already. -/
def RxState.rest (rx : RxState) (frame : List Byte) : List Byte :=
  match rx with
  | .hunting => frame
  | .receiving bytes damaged =>
    if damaged = false ∧ bytes.length + 1 < frame.length ∧ frame.take (bytes.length + 1) = 0xA5 :: bytes then
      frame.drop (bytes.length + 1)
    else frame

/-- The port with its receive state replaced. -/
def State.putRx (s : State) (rx : RxState) : State := s.putLink { s.link with rx := rx }

/-- What a completed frame with a matching CRC leads to. -/
abbrev OnFrame := Byte → Byte → List Byte → State → State

/-- What a receive event leads to: a failed frame makes one FRAME-ERROR reply with kind 80 and sequence number 0 (R178, R179). -/
def State.rxEvent (on : OnFrame) (s : State) (e : RxEvent) : State :=
  match e with
  | .none => s
  | .failed => s.errorReply 0x80 0 .frameError
  | .complete kind seq body => on kind seq body s

/-- The port takes one byte (R178). -/
def State.receiveByte (on : OnFrame) (s : State) (x : RxByte) : State :=
  let next := s.link.rx.take x
  (s.putRx next.1).rxEvent on next.2

/-- The port takes bytes one after another. -/
def State.receive (on : OnFrame) (s : State) (bytes : List RxByte) : State := bytes.foldl (State.receiveByte on) s

/-- A good frame of another kind, whose request is another row's: HUNTING again, and a PARKED part wakes (R181, log 19). -/
def otherFrame : OnFrame := fun _ _ _ s => s.frameComplete

/-- The frame of one kind, sequence number and body, and what follows when it completes. -/
def thisFrame (kind seq : Byte) (body : List Byte) (f : State → State) : OnFrame :=
  fun k q b s => if k = kind ∧ q = seq ∧ b = body then f s else s.frameComplete

/-- The bytes of a request frame arrive, those the port does not hold yet, and the frame has its effect when it completes with a matching CRC (R178, R187). -/
def State.frameArrives (s : State) (kind seq : Byte) (body : List Byte) (f : State → State) : State :=
  s.receive (thisFrame kind seq body f) (goodBytes (s.link.rx.rest (requestFrame kind seq body)))

/-- A request of the catalogue. -/
def State.request (s : State) (kind : Byte) (f : Frame) (owner : State → Answer) : Result :=
  .next (s.whileRunning (fun s => s.frameArrives kind f.seq f.body (fun s =>
    s.frameTaken kind f.seq (fun s => s.judgeRequest kind f.lengthFits owner))))

/-! ## The soft reset (R198) -/

/-- The effects of a failed save, whether it fails or is abandoned (R193). -/
def State.saveFails (s : State) : State :=
  { s with
    cfc := { s.cfc with save := .failed, snapshot := none, imageStatus := .bad, imageTuning := defaultTuning }
    stored := none }

/-- A save that is WRITING is abandoned (R193, R198). -/
def State.abandonSave (s : State) : State :=
  match s.cfc.save with
  | .writing => s.saveFails
  | .none | .done | .failed => s

/-- The tuning set a soft reset leaves: kept whole with KEEP, otherwise the image tuning (R198). -/
def keptTuning (standing image : Tuning) : Tuning := if standing.keep then standing else image

/-- The engine at a soft reset: every order stops, arbiter, zones, regulator and report queue as their rules give (R85, R114, R131, R150, R166, R175). -/
def Engine.softReset (e : Engine) : Engine :=
  let e1 := e.endHandOver
  { e1 with
    channels := Vector.replicate 6 .initial
    mar := .initial
    ost := e1.ost.afterReset
    zones := Bank.each e1.zones (fun z => { ZoneRec.initial with depleted := z.depleted, full := z.full })
    crg := { e1.crg with state := .disabled }
    reports := [] }

/-- The effects of a RESET request (R198). DESIGN CHOICE (log 32): it clears the panel's overlong mark with the buffer that R163 has it empty, and keeps a panel reply that waits. -/
def State.softReset (s : State) : State :=
  let s1 := s.abandonSave
  { s1 with
    eng := s1.eng.softReset
    tab := { s1.tab with tuning := keptTuning s1.tab.tuning s1.cfc.imageTuning }
    cfc := { s1.cfc with lockout := true, parkTimer := 0 }
    panel := { s1.panel with buffer := [], overlong := false } }

/-- The last byte of a reply has left: a RESET's effects, the slot FREE, the waiting reply sent (R180, R186). -/
def State.replyLeft (s : State) : State :=
  match s.link.sending with
  | none => s
  | some r =>
    let s1 := if r.resets then s.softReset else s
    s1.putLink { s1.link with
      slot := if r.ofSlot then .free else s1.link.slot
      sending := s1.link.waiting
      waiting := none }

/-! ## The events of the link -/

/-- UNKNOWN_REQUEST, R181: a completed frame of a kind outside the catalogue, judged so before the part state is. -/
def execUnknownRequest (kind : Byte) (f : PlainFrame) (s : State) : Result :=
  if catalogue.contains kind then .next s
  else .next (s.whileRunning (fun s => s.frameArrives kind f.seq f.body (fun s =>
    s.frameTaken kind f.seq (fun s => s.says .unknownRequest))))

/-- BUSY, R180: a completed frame that finds the slot TAKEN. -/
def execBusy (kind : Byte) (f : PlainFrame) (s : State) : Result :=
  match s.link.slot with
  | .free => .next s
  | .taken => .next (s.whileRunning (fun s => s.frameArrives kind f.seq f.body (fun s =>
      s.frameComplete.errorReply (replyKind kind) f.seq .busy)))

/-- FRAME_ERROR, R178: bytes with no pause between them; each frame in them whose CRC does not match, or whose length is above 120, makes one FRAME-ERROR reply, and the bytes that follow it are judged as in HUNTING. -/
def execFrameError (bytes after : List RxByte) (s : State) : Result :=
  .next (s.whileRunning (fun s => (s.receive otherFrame bytes).receive otherFrame after))

/-- FRAME_TIMEOUT, R178: the pause discards the partial frame with no reply, and the bytes after it are judged from HUNTING. -/
def execFrameTimeout (bytes : PausedBytes) (s : State) : Result :=
  .next (s.whileRunning (fun s =>
    ((s.receive otherFrame bytes.before).putRx .hunting).receive otherFrame bytes.after))

/-- REPLY_SENT, R180. -/
def execReplySent (s : State) : Result := .next (s.whileRunning State.replyLeft)

end Sys2Proof.Machine
end

