-- ==== Sys2Proof/Machine/RequestsOrders.lean ====
section
/-! DEFINITION. The requests on identity, status, orders and reports: IDENTIFY, READ STATUS, START ORDER, HALT ORDER, QUERY CHANNEL, FETCH REPORT. -/

namespace Sys2Proof.Machine

open Sys2Proof

/-! ## IDENTIFY and READ STATUS -/

/-- What IDENTIFY returns (R184). -/
def identityOf (straps : Straps) : Identity where
  device := 0x0260
  family := ascii "ULENGRA"
  part := ascii "UH-260"
  revision := Config.revisionLetter
  counts := [6, 96, 24, 6, 32, 9, 6]
  straps := straps

/-- IDENTIFY's owner (R184). -/
def answerIdentify (s : State) : Answer := s.gives .ok (.identity (identityOf s.tab.straps))

/-- A channel's state by its name (R48). -/
def Channel.stateName (c : Channel) : ChannelState :=
  match c.order with
  | none => .idle
  | some o =>
    match o.phase with
    | .waiting => .waiting
    | .setting => .setting
    | .running => .running
    | .ending _ => .ending

/-- What READ STATUS gives for a channel (R185). -/
def Channel.status (c : Channel) : ChannelStatus where
  state := c.stateName
  cls := c.order.map (·.cls)
  recordQueued := c.recordQueued
  meterHeld := c.order.any (·.meterHeld)

/-- The attention summary (R185). -/
def Engine.attention (e : Engine) (straps : Straps) : Bool :=
  Zone.all.any (fun z => decide ((e.zone z).state ≠ .normal))
  || allOutputs.any (fun o => outputPresent straps o && decide ((e.output o).state ≠ .inService))
  || allValves.any (fun v => decide ((e.valve v).state = .faulted))

/-- What READ STATUS returns (R185). -/
def State.statusNow (s : State) : Status where
  part := s.eng.part
  lockout := s.cfc.lockout
  mode := s.cfc.mode
  imageStatus := s.cfc.imageStatus
  save := s.cfc.save
  queueLength := s.eng.reports.length
  channels := allChannels.map (fun c => (s.eng.channel c).status)
  zones := Zone.all.map (fun z => (s.eng.zone z).state)
  comfort := s.eng.crg.state
  attention := s.eng.attention s.tab.straps

/-- READ STATUS's owner (R185). -/
def answerStatus (s : State) : Answer := s.gives .ok (.status s.statusNow)

/-! ## START ORDER -/

/-- The class of a host order (R50). -/
def hostClass (n : Nat) : Option (Fin 4) := if 1 ≤ n ∧ n ≤ 3 then finOf 4 n else none

/-- The arguments of a START ORDER in range (R50, case 1): channel, first slot, class. -/
def startArgs (channel slot cls limit : Nat) : Option (ChannelNo × SlotNo × Fin 4) :=
  match finOf 6 channel, finOf 96 slot, hostClass cls with
  | some c, some f, some k => if slot ≤ 79 ∧ limit ≤ 1800 then some (c, f, k) else none
  | _, _, _ => none

/-- The record of an ENDED reply (R51). -/
def endedRecord (c : ChannelNo) (tag : Nat) (cls : Fin 4) (g : Ending) : Record :=
  ⟨c, tag, cls, g, none, some 0, 0, 0, ⟨false, false, 0⟩⟩

/-- Why a START ORDER in range is turned away before its fetch (R50, cases 2 to 5). -/
def State.startRefusal (s : State) (c : ChannelNo) : Option (ReplyCode × ReplyBody) :=
  if s.eng.part = .waking then some (.unavailable, .unavailable .waking)
  else if s.cfc.lockout then some (.unavailable, .unavailable .lockout)
  else if c = comfortChannel ∧ s.eng.crg.state ≠ .disabled then some (.unavailable, .unavailable .comfort)
  else if (s.eng.order c).isSome ∨ (s.eng.channel c).recordQueued then some (.occupied, .none)
  else none

/-- The engine with a change. -/
def State.putEngine (s : State) (e : Engine) : State := { s with eng := e }

/-- START ORDER's owner (R50, R51, R53). -/
def answerStart (channel slot cls tag limit : Nat) (s : State) : Answer :=
  match startArgs channel slot cls limit with
  | none => s.says .badArgument
  | some (c, f, k) =>
    match s.startRefusal c with
    | some (code, body) => s.gives code body
    | none =>
      match s.eng.fetchFirst s.tab .host k f with
      | .error g => s.gives .ended (.record (endedRecord c tag k g))
      | .ok x =>
        (s.putEngine (s.eng.takeOrder s.tab (Engine.grantScan s.tab) c (newOrder .host tag k (some f) x limit))).says .taken

/-! ## HALT ORDER -/

/-- HALT ORDER's owner (R79). -/
def answerHalt (channel : Nat) (s : State) : Answer :=
  match finOf 6 channel with
  | none => s.says .badArgument
  | some c =>
    if c = comfortChannel ∧ s.eng.crg.state ≠ .disabled then s.says .notPermitted
    else
      match s.eng.order c with
      | none => s.says .idle
      | some o =>
        if o.cls = 0 then s.says .notPermitted
        else
          match o.phase with
          | .ending ⟨.endWith _, _, _, _, _⟩ => s.says .ending
          | .waiting | .setting | .running | .ending _ =>
            (s.putEngine (s.eng.imposeEnd s.tab (Engine.grantScan s.tab) c (.plain .halted))).says .taken

/-! ## QUERY CHANNEL -/

/-- The ending purpose of an order in ENDING. -/
def Order.purpose (o : Order) : Option Purpose :=
  match o.phase with
  | .ending r => some r.purpose
  | .waiting | .setting | .running => none

/-- The snapshot of a channel's context (R80): run times in tenths of a second, which a scan lasts. -/
def Order.snapshot (o : Order) (t : Tables) : Snapshot where
  state := (Channel.mk (some o) false).stateName
  purpose := o.purpose
  tag := o.tag
  cls := o.cls
  firstSlot := o.firstSlot
  copy := o.copy
  previous := o.previous
  prefetchedSlot := o.next.bind (·.slot)
  failure := o.failure
  remaining := o.remaining
  carry := o.carry
  delivered := o.delivered
  segTime := o.segTime
  orderTime := o.orderTime
  waitTimer := o.waitTimer
  waitLimit := o.waitLimit
  demands := (t.entry o.copy.path).roles.map (fun x => (x.1, Bank.nth o.demands x.1.idx))
  meterHeld := o.meterHeld
  notes := o.notes

/-- The completion record of a channel leaves the queue, and its flag is cleared (R80, R173). -/
def Engine.takeRecord (e : Engine) (c : ChannelNo) : Engine :=
  { e with reports := withoutRecord e.reports c }.putChannel c { e.channel c with recordQueued := false }

/-- QUERY CHANNEL's owner (R80, R173). -/
def answerQuery (channel : Nat) (s : State) : Answer :=
  match finOf 6 channel with
  | none => s.says .badArgument
  | some c =>
    match recordIn s.eng.reports c with
    | some r => (s.putEngine (s.eng.takeRecord c)).gives .record (.record r)
    | none =>
      match s.eng.order c with
      | some o => s.gives .active (.snapshot (o.snapshot s.tab))
      | none => s.says .idle

/-! ## FETCH REPORT -/

/-- The flag that the removal of a report clears (R172). -/
def Engine.clearFlagFor (e : Engine) (r : Report) : Engine :=
  match r.body with
  | .completion x => e.putChannel x.channel { e.channel x.channel with recordQueued := false }
  | .progress _ | .zone _ | .output _ => e

/-- FETCH REPORT's owner (R172). -/
def answerFetch (s : State) : Answer :=
  match s.eng.reports with
  | [] => s.says .empty
  | r :: rest =>
    (s.putEngine (({ s.eng with reports := rest }).clearFlagFor r)).gives .ok (.report r rest.length)

/-! ## The meanings -/

/-- IDENTIFY, R184. -/
def execIdentify (f : Frame) (s : State) : Result := s.request 0x01 f answerIdentify

/-- READ_STATUS, R185. -/
def execReadStatus (f : Frame) (s : State) : Result := s.request 0x02 f answerStatus

/-- START_ORDER, R50. -/
def execStartOrder (f : Frame) (channel slot cls tag limit : Nat) (s : State) : Result :=
  s.request 0x10 f (answerStart channel slot cls tag limit)

/-- HALT_ORDER, R79. -/
def execHaltOrder (f : Frame) (channel : Nat) (s : State) : Result := s.request 0x11 f (answerHalt channel)

/-- QUERY_CHANNEL, R80. -/
def execQueryChannel (f : Frame) (channel : Nat) (s : State) : Result := s.request 0x12 f (answerQuery channel)

/-- FETCH_REPORT, R172. -/
def execFetchReport (f : Frame) (s : State) : Result := s.request 0x13 f answerFetch

end Sys2Proof.Machine
end

