-- ==== Sys2Proof/Machine/RequestsTables.lean ====
section
/-! DEFINITION. The requests on tables: WRITE and READ SEGMENTS, WRITE and READ PATH, WRITE and READ ZONE, WRITE SENSOR MAP, CHECKSUM. -/

namespace Sys2Proof.Machine

open Sys2Proof

/-! ## Segments -/

/-- Segments written to consecutive slots from a first one on (R30). -/
def writeSlots (slots : Bank Segment 96) (first : Nat) (segs : List Segment) : Bank Segment 96 :=
  Vector.ofFn (fun i => if first ≤ i.val then (segs[i.val - first]?).getD (Bank.nth slots i) else Bank.nth slots i)

/-- The refusal of a write to the reserve area (R38, R39, R43). -/
def State.segmentRefusal (s : State) (first : Nat) : Option ReplyCode :=
  if first < 80 then none
  else if s.cfc.locks.reserve then some .locked
  else if s.cfc.mode = .operating then some .notPermitted
  else none

/-- The tables replaced. -/
def State.putTables (s : State) (t : Tables) : State := { s with tab := t }

/-- Configuration control's own state replaced. -/
def State.putControl (s : State) (c : Control) : State := { s with cfc := c }

/-- WRITE SEGMENTS's owner (R30). -/
def answerWriteSegments (body : List Byte) (s : State) : Answer :=
  match segmentWriteOf body with
  | none => s.says .badArgument
  | some (first, segs) =>
    match s.segmentRefusal first with
    | some c => s.says c
    | none => (s.putTables { s.tab with slots := writeSlots s.tab.slots first segs }).says .ok

/-- READ SEGMENTS's owner (R31). -/
def answerReadSegments (first count : Nat) (s : State) : Answer :=
  if 1 ≤ count ∧ count ≤ 8 ∧ first + count ≤ 96 then
    s.gives .ok (.segments first count ((s.tab.slots.toList.drop first).take count))
  else s.says .badArgument

/-! ## Paths -/

/-- Whether a path entry is in use (R45). -/
def Engine.pathInUse (e : Engine) (n : PathNo) : Bool :=
  allChannels.any (fun c => (e.order c).any (fun o => o.copy.path = n || o.next.any (fun x => x.path = n)))
  || (decide (e.crg.state ≠ .disabled)
      && (e.crg.settings.heatPath = some n || e.crg.settings.coolPath = some n))

/-- Whether an entry lies in the path window (R44). -/
def inWindow (w : Option (PathNo × PathNo)) (n : PathNo) : Bool :=
  match w with
  | none => false
  | some (a, b) => decide (a ≤ n ∧ n ≤ b)

/-- The refusal of a path write by lock, mode and window (R39, R42, R44). -/
def Control.pathRefusal (c : Control) (n : PathNo) : Option ReplyCode :=
  match c.mode with
  | .commissioning => if c.locks.path then some .locked else none
  | .operating => if inWindow c.window n then none else some .notPermitted

/-- What READ PATH returns for an entry (R26). -/
def State.pathInfo (s : State) (n : PathNo) : PathInfo where
  entry := Bank.nth s.tab.paths n
  effectiveLead := (Bank.nth s.tab.paths n).map effectiveLead
  inUse := s.eng.pathInUse n
  writable := (s.cfc.pathRefusal n).isNone

/-- WRITE PATH's owner (R25, R39). -/
def answerWritePath (entry : Nat) (write : PathWrite) (s : State) : Answer :=
  match finOf 24 entry, pathWriteOf write with
  | some n, some p =>
    match s.cfc.pathRefusal n with
    | some c => s.says c
    | none =>
      if s.eng.pathInUse n then s.says .inUse
      else
        let s' := s.putTables { s.tab with paths := Bank.put s.tab.paths n p }
        s'.gives .ok (.path (s'.pathInfo n))
  | _, _ => s.says .badArgument

/-- READ PATH's owner (R26). -/
def answerReadPath (entry : Nat) (s : State) : Answer :=
  match finOf 24 entry with
  | none => s.says .badArgument
  | some n => s.gives .ok (.path (s.pathInfo n))

/-! ## Zones -/

/-- What an input shows under its entry of the map as written: until the next scan applies a change, the record it had under its old entry, in that entry's form (R4, R22). -/
def SensorBus.shown (b : SensorBus) (i : InputNo) : InputShown :=
  let readAs := if Bank.nth b.applied i = .unused then Bank.nth b.map i else Bank.nth b.applied i
  ⟨Bank.nth b.inputs i, readAs.isFlow⟩

/-- A zone's input list with what each input shows (R2, R22). -/
def SensorBus.inputList (b : SensorBus) (z : Zone) : List (InputNo × InputShown) :=
  (allInputs.filter (fun i => Bank.nth b.map i = .zoneTemp z)).map (fun i => (i, b.shown i))

/-- A zone's table entry as READ ZONE returns it (R41, R135). DESIGN CHOICE (log 24): the groups and the input list, without the reading. -/
def State.zoneTableInfo (s : State) (z : Zone) : ZoneTableInfo := ⟨z, s.tab.zone z, s.sbe.inputList z⟩

/-- What READ ZONE returns (R22, R135). -/
def State.zoneInfo (s : State) (z : Zone) : ZoneInfo :=
  let r := s.eng.zone z
  { table := s.zoneTableInfo z, reading := Bank.nth s.sbe.readings z.idx, state := r.state
    depleted := r.depleted, full := r.full, pending := r.pending, trip := r.trip }

/-- The refusal of a zone write by lock and mode (R39, R41). -/
def Control.zoneRefusal (c : Control) (x : ZoneChange) : Option ReplyCode :=
  if x.limits.isSome ∧ c.locks.limit then some .locked
  else if c.mode = .operating then some .notPermitted
  else none

/-- A zone's entry with the carried groups replaced (R41). -/
def Tables.changeZone (t : Tables) (z : Zone) (x : ZoneChange) : Tables :=
  { t with zones := Bank.put t.zones z.idx (x.apply (t.zone z)) }

/-- A zone write taken: the groups replaced, and a pending start judged afresh when the reserve group is among them (R41, R134). -/
def State.takeZoneWrite (s : State) (z : Zone) (x : ZoneChange) : State :=
  let t := s.tab.changeZone z x
  let s' := s.putTables t
  if x.reserve.isSome then s'.putEngine (s.eng.rejudgePending t (Engine.grantScan t) z) else s'

/-- WRITE ZONE's owner (R41, R133, R134). -/
def answerWriteZone (zone : Nat) (write : ZoneWrite) (s : State) : Answer :=
  match zoneOf zone with
  | none => s.says .badArgument
  | some z =>
    match zoneChangeOf z write with
    | none => s.says .badArgument
    | some x =>
      match s.cfc.zoneRefusal x with
      | some c => s.says c
      | none =>
        let s' := s.takeZoneWrite z x
        s'.gives .ok (.zoneTable (s'.zoneTableInfo z))

/-- READ ZONE's owner (R135). -/
def answerReadZone (zone : Nat) (s : State) : Answer :=
  match zoneOf zone with
  | none => s.says .badArgument
  | some z => s.gives .ok (.zone (s.zoneInfo z))

/-! ## The sensor map -/

/-- The whole map with what each input shows (R22). -/
def SensorBus.mapInfo (b : SensorBus) : List (MapEntry × InputShown) :=
  allInputs.map (fun i => (Bank.nth b.map i, b.shown i))

/-- WRITE SENSOR MAP's owner (R4, R46): the map is replaced now, and the inputs restart when the next scan begins. -/
def answerWriteSensorMap (entries : List RawMapEntry) (s : State) : Answer :=
  match mapWriteOf s.sbe.map entries with
  | none => s.says .badArgument
  | some m =>
    if s.cfc.mode = .operating then s.says .notPermitted
    else
      let b := { s.sbe with map := m }
      ({ s with sbe := b }).gives .ok (.sensorMap b.mapInfo)

/-! ## CHECKSUM -/

/-- How many items an area has (R47). -/
def areaSize : Area → Nat
  | .segments => 96
  | .paths => 24
  | .zones => 6
  | .sensorMap => 32
  | .unknown => 0

/-- The bytes of every item of an area in ascending order, each those that its own read request returns for it (R47). -/
def State.areaBytes (s : State) : Area → List (List Byte)
  | .segments => s.tab.slots.toList.map segmentBytes
  | .paths => s.tab.paths.toList.map (fun p => fieldBytes (pathFields p))
  | .zones => Zone.all.map (fun z => fieldBytes (zoneFields z (s.tab.zone z)))
  | .sensorMap => s.sbe.map.toList.map (fun m => fieldBytes (mapFields m))
  | .unknown => []

/-- The CRC of CHECKSUM over items `first` to `last` (R47, R177). -/
def State.areaCrc (s : State) (a : Area) (first last : Nat) : Half :=
  crc16 (((s.areaBytes a).drop first).take (last - first + 1)).flatten

/-- CHECKSUM's owner (R47). -/
def answerChecksum (a : Area) (first last : Nat) (s : State) : Answer :=
  if first ≤ last ∧ last < areaSize a then
    s.gives .ok (.checksum (s.areaCrc a first last) (last - first + 1) s.cfc.mode s.cfc.locks)
  else s.says .badArgument

/-! ## The meanings -/

/-- WRITE_SEGMENTS, R30. -/
def execWriteSegments (f : Frame) (body : List Byte) (s : State) : Result :=
  s.request 0x20 f (answerWriteSegments body)

/-- READ_SEGMENTS, R31. -/
def execReadSegments (f : Frame) (first count : Nat) (s : State) : Result :=
  s.request 0x21 f (answerReadSegments first count)

/-- WRITE_PATH, R25. -/
def execWritePath (f : Frame) (entry : Nat) (write : PathWrite) (s : State) : Result :=
  s.request 0x22 f (answerWritePath entry write)

/-- READ_PATH, R26. -/
def execReadPath (f : Frame) (entry : Nat) (s : State) : Result := s.request 0x23 f (answerReadPath entry)

/-- WRITE_ZONE, R41. -/
def execWriteZone (f : Frame) (zone : Nat) (write : ZoneWrite) (s : State) : Result :=
  s.request 0x24 f (answerWriteZone zone write)

/-- READ_ZONE, R135. -/
def execReadZone (f : Frame) (zone : Nat) (s : State) : Result := s.request 0x25 f (answerReadZone zone)

/-- WRITE_SENSOR_MAP, R46. -/
def execWriteSensorMap (f : Frame) (entries : List RawMapEntry) (s : State) : Result :=
  s.request 0x26 f (answerWriteSensorMap entries)

/-- CHECKSUM, R47. -/
def execChecksum (f : Frame) (a : Area) (first last : Nat) (s : State) : Result :=
  s.request 0x27 f (answerChecksum a first last)

end Sys2Proof.Machine
end

