-- ==== Sys2Proof/Machine/RequestsPlant.lean ====
section
/-! DEFINITION. The requests on movers and comfort: READ MOVERS, EXCHANGE ROLE, TEST OUTPUT, SET CABIN TARGET, COMFORT ON, COMFORT OFF, PANEL LOCK. -/

namespace Sys2Proof.Machine

open Sys2Proof

/-! ## READ MOVERS -/

/-- A meter as READ MOVERS gives it: rate absent in INVALID, held rate in HOLDING and HAND-OVER, hold count in HOLDING, and its three inputs (R22). DESIGN CHOICE (log 24): the inputs are those of the map as written. -/
def State.meterInfo (s : State) (m : Meter) : MeterInfo :=
  let r := s.eng.meter m
  let input (x : MapEntry) : InputShown :=
    match allInputs.find? (fun i => Bank.nth s.sbe.map i = x) with
    | none => ⟨none, x.isFlow⟩
    | some i => s.sbe.shown i
  { state := r.state
    rate := if r.state = .invalid then none else r.rate
    held := if r.state = .holding ∨ r.state = .handOver then r.held else none
    holdCount := if r.state = .holding then some r.holdCount else none
    flow := input (.meterFlow m)
    supply := input (.meterSupply m)
    return_ := input (.meterReturn m) }

/-- An output's hand-over part with its time left (R115, R130). -/
def OutputStage.partOf (x : OutputStage) (o : OutputNo) : Option (HandOverPart × Nat) :=
  match x.handOver with
  | none => none
  | some h =>
    if h.incoming = o then some (.incoming, h.timer)
    else if h.outgoing.any (fun y => y.1 = o) then some (.outgoing, h.timer)
    else none

/-- An output as READ MOVERS gives it (R130). -/
def Engine.outputInfo (e : Engine) (o : OutputNo) : OutputInfo :=
  let r := e.output o
  { number := o, kind := outputKind o, role := e.ost.served o, state := r.state, fault := r.fault
    target := r.target, level := r.level, current := r.current
    speed := if (outputKind o).turns then some r.speed else none
    testTimer := if r.state = .testing then r.testTimer else none
    handOver := e.ost.partOf o }

/-- A valve as READ MOVERS gives it (R130). DESIGN CHOICE (log 24): the travel time left is in tenths of a second, the timer's scans. -/
def ValveRec.info (v : ValveRec) : ValveInfo where
  state := v.state
  fault := v.fault
  test := v.test.isSome
  commanded := v.commanded
  feedback := v.feedback
  travelLeft := if v.state = .travelling then some v.travelTimer else none

/-- The position a granted set claims on a valve. -/
def ClaimSet.positionOf (s : ClaimSet) (v : ValveNo) : Nat :=
  match s.valves.find? (fun x => x.1 = v) with
  | some x => x.2
  | none => 0

/-- The roles in the order of the arbiter's table (R86). -/
def arbiterRoles : List Role := [.pumpBatt, .pumpDrive, .pumpCabin, .pumpAux, .fan, .heater, .compressor, .chiller]

/-- What READ MOVERS returns (R22, R113, R130). DEDUCED (log 7): the holder lists of the roles come in the order of R86's table, as R183 has fields follow their owner's tables. DESIGN CHOICE (log 7): the holders in a list come in grant order. -/
def State.moversNow (s : State) : Movers :=
  let e := s.eng
  { outputs := (allOutputs.filter (outputPresent s.tab.straps)).map e.outputInfo
    valves := allValves.map (fun v => (e.valve v).info)
    roleMap := e.ost.roleMap
    meters := Meter.all.map s.meterInfo
    claims := e.mar.claims
    roleHolders := arbiterRoles.map (fun r =>
      (r, (holdersOf e.mar.grants r).map (fun g => ⟨g.channel, g.cls, g.shareOf r⟩)))
    valveHolders := allValves.map (fun v =>
      (v, (valveHoldersOf e.mar.grants v).map (fun g => ⟨g.channel, g.cls, g.positionOf v⟩)))
    compressorShares := sharesOn e.mar.grants .compressor
    heaterShares := sharesOn e.mar.grants .heater
    grantOrder := e.mar.grants.map (·.channel)
    compressor := e.mar.comp }

/-- READ MOVERS's owner (R130). -/
def answerMovers (s : State) : Answer := s.gives .ok (.movers s.moversNow)

/-! ## EXCHANGE ROLE -/

/-- What becomes of an EXCHANGE ROLE (R124). -/
inductive Exchange
  | refused (c : ReplyCode)
  | atOnce (r : Role) (spare : OutputNo)
  | held (r : Role) (spare : OutputNo)
  deriving DecidableEq, Repr

/-- The cases of R124 in their order. -/
def State.judgeExchange (s : State) (role : Option Role) (force : Bool) : Exchange :=
  match role with
  | none => .refused .badArgument
  | some r =>
    if r.isPump = false then .refused .badArgument
    else if s.tab.straps.spare = false then .refused .notPermitted
    else if s.eng.ost.handOver.isSome then .refused .inUse
    else if (s.eng.output (s.eng.mapped r)).state = .testing then .refused .inUse
    else
      match s.eng.ost.spare s.tab.straps with
      | none => .refused .outputFaulted
      | some x =>
        if (s.eng.output x).state ≠ .inService then .refused .outputFaulted
        else if (holdersOf s.eng.mar.grants r).isEmpty then .atOnce r x
        else if force then .held r x
        else .refused .inUse

/-- EXCHANGE ROLE's owner (R124, R125). -/
def answerExchange (role : Option Role) (force : Bool) (s : State) : Answer :=
  match s.judgeExchange role force with
  | .refused c => s.says c
  | .atOnce r x =>
    let e := s.eng.exchangeAtOnce s.tab r x
    (s.putEngine e).gives .ok (.roleMap e.ost.roleMap)
  | .held r x =>
    let e := s.eng.exchangeHeld s.tab r x
    (s.putEngine e).gives .ok (.roleMap e.ost.roleMap)

/-! ## TEST OUTPUT -/

/-- The output a TEST OUTPUT names, if it exists (R127, case 1). -/
def testedOutput (straps : Straps) (n : Nat) : Option OutputNo :=
  if n = 0 then none
  else
    match finOf 9 (n - 1) with
    | some o => if outputPresent straps o then some o else none
    | none => none

/-- The test of an output judged (R127, cases 2 to 7). -/
def answerOutputTest (s : State) (o : OutputNo) : Answer :=
  if s.eng.part = .waking then s.says .notPermitted
  else
    match (s.eng.output o).state with
    | .testing => s.says .inUse
    | .inService => s.says .notPermitted
    | .faulted =>
      if o = 4 ∧ s.eng.mar.comp.condition ≠ .steady then s.says .notPermitted
      else (s.putEngine (s.eng.beginOutputTest o)).says .ok

/-- The test of a valve judged (R127, cases 2 to 7). -/
def answerValveTest (s : State) (v : ValveNo) : Answer :=
  if s.eng.part = .waking then s.says .notPermitted
  else if (s.eng.valve v).test.isSome then s.says .inUse
  else if (s.eng.valve v).state ≠ .faulted then s.says .notPermitted
  else if (valveHoldersOf s.eng.mar.grants v).isEmpty = false then s.says .inUse
  else (s.putEngine (s.eng.beginValveTest s.tab v)).says .ok

/-- TEST OUTPUT's owner (R127). -/
def answerTest (item : TestItem) (s : State) : Answer :=
  match item with
  | .other => s.says .badArgument
  | .output n =>
    match testedOutput s.tab.straps n with
    | none => s.says .badArgument
    | some o => answerOutputTest s o
  | .valve n =>
    match valveOf n with
    | none => s.says .badArgument
    | some v => answerValveTest s v

/-! ## Comfort -/

/-- What the comfort replies return (R154). -/
def Engine.comfortInfo (e : Engine) : ComfortInfo := ⟨e.crg.state, e.crg.settings, e.crg.target⟩

/-- The regulator with a change. -/
def State.putRegulator (s : State) (r : Regulator) : State := s.putEngine { s.eng with crg := r }

/-- SET CABIN TARGET's owner (R152): the value in hundredths of a degree must be whole tenths in range. -/
def answerTarget (hundredths : Int) (s : State) : Answer :=
  let x := hundredths / 10
  if hundredths % 10 = 0 ∧ targetOk x then
    (s.putRegulator { s.eng.crg with target := x }).gives .ok (.cabinTarget x s.eng.crg.state s.cabinMean)
  else s.says .badArgument

/-- Whether a path setting serves: it names a DEFINED entry that passes the zone test (R153, R155). -/
def Tables.servesComfort (t : Tables) (n : Option PathNo) (ok : PathEntry → Bool) : Bool :=
  match n with
  | none => false
  | some n =>
    match Bank.nth t.paths n with
    | none => false
    | some p => ok p

/-- The settings a COMFORT ON would use, when they are in range and both paths serve (R155, case 1). -/
def State.comfortSettings (s : State) (given : Option RawComfort) : Option ComfortSettings :=
  let used := match given with
    | none => some s.eng.crg.settings
    | some r => comfortOf r
  match used with
  | none => none
  | some x =>
    if s.tab.servesComfort x.heatPath (fun p => p.sink = .cabin)
      ∧ s.tab.servesComfort x.coolPath (fun p => p.source = .cabin) then some x
    else none

/-- COMFORT ON's owner (R155). -/
def answerComfortOn (given : Option RawComfort) (s : State) : Answer :=
  match s.comfortSettings given with
  | none => s.says .badArgument
  | some x =>
    if s.eng.part = .waking then s.gives .unavailable (.unavailable .waking)
    else if s.cfc.lockout then s.gives .unavailable (.unavailable .lockout)
    else
      match s.eng.crg.state with
      | .active _ | .held => s.says .inUse
      | .disabled | .suspended =>
        if (s.eng.order comfortChannel).isSome ∨ (s.eng.channel comfortChannel).recordQueued then s.says .inUse
        else
          let s' := s.putRegulator { s.eng.crg with settings := x, state := .active .resting }
          s'.gives .ok (.comfort s'.eng.comfortInfo)

/-- COMFORT OFF's owner (R156). -/
def answerComfortOff (s : State) : Answer :=
  let s' := s.putEngine (s.eng.comfortDisable s.tab (Engine.grantScan s.tab))
  s'.gives .ok (.comfort s'.eng.comfortInfo)

/-- PANEL LOCK's owner (R165). -/
def answerPanelLock (on : Option Bool) (s : State) : Answer :=
  match on with
  | none => s.says .badArgument
  | some b => ({ s with panel := { s.panel with lock := b } }).gives .ok (.panelLock b s.eng.comfortInfo)

/-! ## The meanings -/

/-- READ_MOVERS, R130. -/
def execReadMovers (f : Frame) (s : State) : Result := s.request 0x30 f answerMovers

/-- EXCHANGE_ROLE, R124. -/
def execExchangeRole (f : Frame) (role : Option Role) (force : Bool) (s : State) : Result :=
  s.request 0x31 f (answerExchange role force)

/-- TEST_OUTPUT, R127. -/
def execTestOutput (f : Frame) (item : TestItem) (s : State) : Result := s.request 0x32 f (answerTest item)

/-- SET_CABIN_TARGET, R152. -/
def execSetCabinTarget (f : Frame) (hundredths : Int) (s : State) : Result :=
  s.request 0x40 f (answerTarget hundredths)

/-- COMFORT_ON, R155. -/
def execComfortOn (f : Frame) (settings : Option RawComfort) (s : State) : Result :=
  s.request 0x41 f (answerComfortOn settings)

/-- COMFORT_OFF, R156. -/
def execComfortOff (f : Frame) (s : State) : Result := s.request 0x42 f answerComfortOff

/-- PANEL_LOCK, R165. -/
def execPanelLock (f : Frame) (on : Option Bool) (s : State) : Result := s.request 0x43 f (answerPanelLock on)

end Sys2Proof.Machine
end

