-- ==== Sys2Proof/Machine/RequestsControl.lean ====
section
/-! DEFINITION. The requests of configuration control: SET TUNING, SET MODE, SET LOCK, RELEASE PATH LOCK, SET PATH WINDOW, SAVE CONFIGURATION, RELEASE LOCKOUT, PARK, RESET. -/

namespace Sys2Proof.Machine

open Sys2Proof

/-- SET TUNING's owner (R194). -/
def answerTuning (tun : Tuning) (auto : Bool) (s : State) : Answer :=
  if tuningOk tun = false then s.says .badArgument
  else if s.cfc.mode = .operating ∧ auto ≠ s.cfc.autoRelease then s.says .notPermitted
  else
    ((s.putTables { s.tab with tuning := tun }).putControl { s.cfc with autoRelease := auto }).gives .ok
      (.tuning tun auto)

/-- SET MODE's owner (R195). -/
def answerMode (mode : Option Mode) (s : State) : Answer :=
  match mode with
  | none => s.says .badArgument
  | some .operating => (s.putControl { s.cfc with mode := .operating }).says .ok
  | some .commissioning =>
    if s.eng.allIdle = false ∨ s.eng.crg.state ≠ .disabled then s.says .inUse
    else (s.putControl { s.cfc with mode := .commissioning }).says .ok

/-- Locks set by name; SET LOCK clears none (R40). -/
def Locks.set (now named : Locks) : Locks :=
  ⟨now.limit || named.limit, now.path || named.path, now.reserve || named.reserve⟩

/-- Whether a SET LOCK names a lock at all (R40). -/
def Locks.namesOne (l : Locks) : Bool := l.limit || l.path || l.reserve

/-- SET LOCK's owner (R40). -/
def answerSetLock (locks : Locks) (s : State) : Answer :=
  if Locks.namesOne locks = false then s.says .badArgument
  else if s.cfc.mode = .operating then s.says .notPermitted
  else
    let l := Locks.set s.cfc.locks locks
    (s.putControl { s.cfc with locks := l }).gives .ok (.locks l)

/-- RELEASE PATH LOCK's owner (R42). -/
def answerReleasePathLock (s : State) : Answer :=
  if s.cfc.mode = .operating then s.says .notPermitted
  else if s.eng.allIdle = false then s.says .inUse
  else
    let l := { s.cfc.locks with path := false }
    (s.putControl { s.cfc with locks := l }).gives .ok (.locks l)

/-- A path window read: EMPTY, or a first and a last entry in range and in order (R44). -/
def windowOf (w : Option (Nat × Nat)) : Option (Option (PathNo × PathNo)) :=
  match w with
  | none => some none
  | some (a, b) =>
    match finOf 24 a, finOf 24 b with
    | some x, some y => if x ≤ y then some (some (x, y)) else none
    | _, _ => none

/-- SET PATH WINDOW's owner (R40, R44). -/
def answerWindow (w : Option (Nat × Nat)) (s : State) : Answer :=
  match windowOf w with
  | none => s.says .badArgument
  | some x =>
    if s.cfc.mode = .operating then s.says .notPermitted
    else (s.putControl { s.cfc with window := x }).gives .ok (.window x s.cfc.locks)

/-- The snapshot of every item of R191 (R193). -/
def State.imageNow (s : State) : Image where
  paths := s.tab.paths
  zones := s.tab.zones
  map := s.sbe.map
  slots := Vector.ofFn (fun i => Bank.nth s.tab.slots ⟨80 + i.val, by omega⟩)
  locks := s.cfc.locks
  window := s.cfc.window
  roleMap := s.eng.ost.roleMap
  comfort := s.eng.crg.settings
  target := s.eng.crg.target
  tuning := s.tab.tuning
  autoRelease := s.cfc.autoRelease

/-- SAVE CONFIGURATION's owner (R193). -/
def answerSave (s : State) : Answer :=
  match s.cfc.save with
  | .writing => s.says .inUse
  | .none | .done | .failed =>
    (s.putControl { s.cfc with save := .writing, snapshot := some s.imageNow }).says .ok

/-- RELEASE LOCKOUT's owner (R192). -/
def answerReleaseLockout (s : State) : Answer := (s.putControl { s.cfc with lockout := false }).says .ok

/-- PARK's owner (R196). -/
def answerPark (s : State) : Answer :=
  if s.eng.part = .ready ∧ s.eng.parkable s.cfc.save then s.enterParked.says .ok
  else s.says .notPermitted

/-- RESET's owner: OK, and the effects follow the reply (R198). -/
def answerReset (s : State) : Answer := ⟨s, .ok, .none, true⟩

/-! ## The meanings -/

/-- SET_TUNING, R194. -/
def execSetTuning (f : Frame) (tun : Tuning) (auto : Bool) (s : State) : Result :=
  s.request 0x50 f (answerTuning tun auto)

/-- SET_MODE, R195. -/
def execSetMode (f : Frame) (mode : Option Mode) (s : State) : Result := s.request 0x51 f (answerMode mode)

/-- SET_LOCK, R40. -/
def execSetLock (f : Frame) (locks : Locks) (s : State) : Result := s.request 0x52 f (answerSetLock locks)

/-- RELEASE_PATH_LOCK, R42. -/
def execReleasePathLock (f : Frame) (s : State) : Result := s.request 0x53 f answerReleasePathLock

/-- SET_PATH_WINDOW, R44. -/
def execSetPathWindow (f : Frame) (w : Option (Nat × Nat)) (s : State) : Result := s.request 0x54 f (answerWindow w)

/-- SAVE_CONFIGURATION, R193. -/
def execSaveConfiguration (f : Frame) (s : State) : Result := s.request 0x55 f answerSave

/-- RELEASE_LOCKOUT, R192. -/
def execReleaseLockout (f : Frame) (s : State) : Result := s.request 0x56 f answerReleaseLockout

/-- PARK, R196. -/
def execPark (f : Frame) (s : State) : Result := s.request 0x57 f answerPark

/-- RESET, R198. -/
def execReset (f : Frame) (s : State) : Result := s.request 0x58 f answerReset

end Sys2Proof.Machine
end

