-- ==== Sys2Proof/Machine/ScanEvents.lean ====
section
/-! DEFINITION. The events of the clock and the plant: the scan rows (R4 to R10), the end of a scan, and the rows of what falls due at it or after it. A row that is not due in the state it meets changes nothing (log 2). -/

namespace Sys2Proof.Machine

open Sys2Proof

/-- A change of the engine while the part runs. -/
def State.onEngine (s : State) (f : Engine → Engine) : Result :=
  .next (s.whileRunning (fun s => s.putEngine (f s.eng)))

/-- A change of the engine while the part runs and is READY. -/
def State.onReady (s : State) (f : Engine → Engine) : Result :=
  .next (s.whileRunning (fun s => s.putEngine (whenReady f s.eng)))

/-- The grant scan that an event makes. -/
def State.scanGrants (s : State) : Engine → Engine := Engine.grantScan s.tab

/-! ## Scans -/

/-- Whether a full scan may start: none in progress, the part READY, or WAKING in output enable (R5, R7, R197). -/
def State.mayScan (s : State) : Bool :=
  s.sbe.scan.isNone &&
    (match s.eng.part, s.eng.wake with
      | .ready, _ => true
      | .waking, .outputEnable => true
      | _, _ => false)

/-- SCAN_START, R5. -/
def execScanStart (s : State) : Result :=
  .next (s.whileRunning (fun s => if s.mayScan then { s with sbe := s.sbe.start .full } else s))

/-- The clock of a PARKED part has gone on by some tenths of a second: the equalize timer falls, and an equalize at 0 ends (R105). -/
def Engine.parkedClock (e : Engine) (t : Tables) (tenths : Nat) : Engine := Engine.equalizeIfOver t (e.equalizeFall tenths)

/-- A parked scan starts 10 seconds after the entry to PARKED or after the last one: what of them no step on an empty queue has counted goes by first (R6, R105, log 6). -/
def State.parkedScanStart (s : State) : State :=
  { s with
    eng := s.eng.parkedClock s.tab (100 - s.sbe.parkedTime)
    sbe := { s.sbe.start .parked with parkedTime := 0 } }

/-- PARKED_SCAN_START, R6. -/
def execParkedScanStart (s : State) : Result :=
  .next (s.whileRunning (fun s =>
    if s.sbe.scan.isNone ∧ s.eng.part = .parked then s.parkedScanStart else s))

/-- WAKING_SCAN_START, R197: at the entry to WAKING, or once a parked scan under way has ended. -/
def execWakingScanStart (s : State) : Result :=
  .next (s.whileRunning (fun s =>
    if s.sbe.scan.isNone ∧ s.eng.part = .waking ∧ s.eng.wake = .scanDue then
      { s with sbe := s.sbe.start .waking, eng := { s.eng with wake := .wakingScan } }
    else s))

/-- SENSOR_READ, R9: the read of the input whose turn it is. -/
def execSensorRead (i : InputNo) (reply : SensorReply) (s : State) : Result :=
  .next (s.whileRunning (fun s =>
    match s.sbe.scan with
    | none => s
    | some sc => if sc.readsNext i then { s with sbe := s.sbe.read sc i reply } else s))

/-- Whether a miss would take an input to LOST (R10). -/
def InputRec.atLastMiss (r : InputRec) : Bool := decide (r.status = .valid ∧ r.misses = 2)

/-- INPUT_LOST, R10: the third miss of the input whose turn it is. -/
def execInputLost (i : InputNo) (s : State) : Result :=
  .next (s.whileRunning (fun s =>
    match s.sbe.scan with
    | none => s
    | some sc =>
      if sc.readsNext i ∧ (Bank.nth s.sbe.inputs i).any InputRec.atLastMiss then
        { s with sbe := s.sbe.read sc i .noAnswer }
      else s))

/-- SCAN_END, R5. -/
def execScanEnd (f : Feedback) (ord : ScanOrder) (s : State) : Result :=
  .next (s.whileRunning (fun s =>
    match s.sbe.scan with
    | some ⟨kind, []⟩ => s.endScan kind f ord
    | some ⟨_, _ :: _⟩ | none => s))

/-! ## Expiries of meters and channels -/

/-- METER_HOLD_EXPIRY, R18. -/
def execMeterHoldExpiry (m : Meter) (s : State) : Result :=
  s.onEngine (fun e => e.holdExpires s.tab s.scanGrants m)

/-- RESERVE_PENDING_START, R143: the zones pending for an IDLE channel of a READY part. -/
def execReservePendingStart (c : ChannelNo) (s : State) : Result :=
  s.onEngine (fun e => e.servePending s.tab s.scanGrants c)

/-- SEGMENT_TIME_LIMIT, R71. -/
def execSegmentTimeLimit (c : ChannelNo) (s : State) : Result :=
  s.onEngine (fun e => e.timeLimitReached s.tab s.scanGrants c)

/-- LEAD_END, R58. -/
def execLeadEnd (c : ChannelNo) (s : State) : Result := s.onEngine (fun e => e.leadEnds s.tab c)

/-- WAIT_LIMIT_REACHED, R72. -/
def execWaitLimitReached (c : ChannelNo) (s : State) : Result :=
  s.onEngine (fun e => e.waitLimitReached s.tab s.scanGrants c)

/-- RUN_DOWN_END, R78. -/
def execRunDownEnd (c : ChannelNo) (s : State) : Result :=
  s.onEngine (fun e => e.runDownReached s.tab s.scanGrants c)

/-- EQUALIZE_END, R105: the timer has reached 0. -/
def execEqualizeEnd (s : State) : Result := s.onEngine (Engine.equalizeIfOver s.tab)

/-! ## Outputs and valves -/

/-- OPEN_LOAD, R121. -/
def execOpenLoad (o : OutputNo) (s : State) : Result := s.onReady (fun e => e.openLoadReached s.tab o)

/-- STALL, R121. -/
def execStall (o : OutputNo) (s : State) : Result := s.onReady (fun e => e.stallReached s.tab o)

/-- OUTPUT_TEST_END, R127. -/
def execOutputTestEnd (o : OutputNo) (s : State) : Result := s.onReady (fun e => e.testEnds s.tab o)

/-- HAND_OVER_END, R125. -/
def execHandOverEnd (s : State) : Result := s.onReady Engine.handOverEnds

/-- VALVE_AT_POSITION, R119. -/
def execValveAtPosition (v : ValveNo) (s : State) : Result :=
  s.onReady (fun e => e.valveArrives s.tab s.scanGrants v)

/-- VALVE_TRAVEL_TIMEOUT, R120. -/
def execValveTravelTimeout (v : ValveNo) (s : State) : Result :=
  s.onReady (fun e => e.valveTimesOut s.tab s.scanGrants v)

/-- VALVE_FEEDBACK_LOST, R120. -/
def execValveFeedbackLost (v : ValveNo) (s : State) : Result :=
  s.onReady (fun e => e.valveLosesFeedback s.tab s.scanGrants v)

/-- VALVE_DRIFT, R119. -/
def execValveDrift (v : ValveNo) (s : State) : Result := s.onReady (fun e => e.valveDrifts s.tab v)

/-- VALVE_TEST_FIRST_LEG, R128. -/
def execValveTestFirstLeg (v : ValveNo) (s : State) : Result := s.onReady (fun e => e.valveTestTurns s.tab v)

/-- VALVE_TEST_PASS, R128. -/
def execValveTestPass (v : ValveNo) (s : State) : Result := s.onReady (fun e => e.valveTestPasses s.tab v)

/-! ## Parking and waking -/

/-- PARK_TIMER_EXPIRY, R196. -/
def execParkTimerExpiry (s : State) : Result := .next (s.whileRunning State.parkIfDue)

/-- A WAKING part enters READY: fault judging resumes with every count at 0, and pending reserve starts are made (R131, R143, R197). -/
def Engine.enable (e : Engine) (t : Tables) : Engine :=
  allChannels.foldl (fun e c => e.servePending t (Engine.grantScan t) c)
    { e with part := .ready, ost := e.ost.countsCleared }

/-- OUTPUT_ENABLE_END, R197. -/
def execOutputEnableEnd (s : State) : Result :=
  .next (s.whileRunning (fun s =>
    if s.eng.part = .waking ∧ s.eng.wake = .outputEnable then
      { s with eng := s.eng.enable s.tab, cfc := { s.cfc with parkTimer := 0 } }
    else s))

/-! ## The empty queue -/

/-- What 100 milliseconds of the clock do to a PARKED part with no command waiting (R6, R105, log 6). -/
def State.parkedTick (s : State) : State :=
  match s.eng.part with
  | .parked =>
    { s with eng := s.eng.parkedClock s.tab 1, sbe := { s.sbe with parkedTime := min 100 (s.sbe.parkedTime + 1) } }
  | .starting | .ready | .waking => s

/-- The block with no command waiting (log 6). -/
def State.idle (s : State) : State := s.whileRunning State.parkedTick

end Sys2Proof.Machine
end

