-- ==== Sys2Proof/Machine/PowerEvents.lean ====
section
/-! DEFINITION. The events of supply and reset pin (R190, R193), the load of the image at start-up (R191), the course of a save (R8, R193), and the panel link (R163). -/

namespace Sys2Proof.Machine

open Sys2Proof

/-! ## Supply and reset pin -/

/-- What a cut or a reset leaves of the stored image: a save that is WRITING leaves it invalid (R193). -/
def State.storedAfterCut (s : State) : Option Image :=
  match s.cfc.save with
  | .writing => none
  | .none | .done | .failed => s.stored

/-- The part after a power-on reset or the release of the reset pin (R190). -/
def State.restart (s : State) (straps : Straps) : State := State.fresh straps s.eng.ost.circuit s.storedAfterCut s.pending

/-- The part stopped: its state lost, the straps as latched until the next release (R190). -/
def State.stopped (s : State) (r : RunState) : State :=
  { State.fresh s.tab.straps s.eng.ost.circuit s.storedAfterCut s.pending with run := r }

/-- POWER_ON_RESET, R190. -/
def execPowerOnReset (straps : Straps) (s : State) : Result := .next (s.restart straps)

/-- RESET_PIN_RELEASE, R190: the same effect as a power-on reset, while there is supply. -/
def execResetPinRelease (straps : Straps) (s : State) : Result :=
  match s.run with
  | .running | .heldInReset => .next (s.restart straps)
  | .noSupply => .next s

/-- RESET_PIN_ASSERT, R190: the part does not run while the pin is low. -/
def execResetPinAssert (s : State) : Result :=
  match s.run with
  | .running => .next (s.stopped .heldInReset)
  | .heldInReset | .noSupply => .next s

/-- POWER_LOSS, R193. -/
def execPowerLoss (s : State) : Result :=
  match s.run with
  | .running | .heldInReset => .next (s.stopped .noSupply)
  | .noSupply => .next s

/-! ## The image at start-up (R191) -/

/-- The image that the read yields, when its CRC matches: the stored one, or one put there from outside. -/
def State.imageRead (s : State) (r : ImageRead) : Option Image :=
  match r with
  | .noAnswer | .crcMismatch => none
  | .stored => s.stored
  | .supplied i => some i

/-- What the parameter memory holds after the read: the image supplied from outside, if one was. -/
def State.storedAfterRead (s : State) (r : ImageRead) : Option Image :=
  match r with
  | .supplied i => some i
  | .noAnswer | .crcMismatch | .stored => s.stored

/-- The image that is installed: only with LOAD latched set, and only one whose tables meet their constraints (R191). -/
def State.imageToInstall (s : State) (r : ImageRead) : Option Image :=
  if s.tab.straps.load then
    match s.imageRead r with
    | none => none
    | some i => if imageOk i then some i else none
  else none

/-- The slots an image leaves: 0 to 79 EMPTY, 80 to 95 its own (R27). -/
def imageSlots (i : Image) : Bank Segment 96 :=
  Vector.ofFn (fun k => if h : 80 ≤ k.val then Bank.nth i.slots ⟨k.val - 80, by omega⟩ else .empty)

/-- The role map an image leaves: the default map where its own breaks R116. -/
def imageRoleMap (straps : Straps) (i : Image) : Bank OutputNo 8 :=
  if roleMapOk straps.spare i.roleMap then i.roleMap else defaultRoleMap

/-- The defaults of R191 as an image. -/
def defaultImage : Image where
  paths := Vector.replicate 24 none
  zones := shippedZones
  map := Vector.replicate 32 .unused
  slots := Vector.replicate 16 .empty
  locks := ⟨false, false, false⟩
  window := none
  roleMap := defaultRoleMap
  comfort := defaultComfort
  target := 210
  tuning := defaultTuning
  autoRelease := false

/-- Contents installed with an image status, and the part READY (R11, R21, R191, R192, R196). -/
def State.install (s : State) (i : Image) (status : ImageStatus) : State :=
  { s with
    eng := { s.eng with
      part := .ready
      ost := { s.eng.ost with roleMap := imageRoleMap s.tab.straps i }
      crg := { s.eng.crg with target := i.target, settings := i.comfort } }
    tab := { s.tab with paths := i.paths, zones := i.zones, slots := imageSlots i, tuning := i.tuning }
    sbe := { s.sbe with map := i.map, applied := i.map, inputs := Vector.ofFn (fun k => freshInput (Bank.nth i.map k)) }
    cfc := { s.cfc with
      locks := i.locks
      window := i.window
      imageStatus := status
      imageTuning := i.tuning
      autoRelease := i.autoRelease
      lockout := !(decide (status = .valid) && i.autoRelease)
      parkTimer := 0 } }

/-- The end of start-up (R191): the image installed, or the defaults as a whole. -/
def State.finishStart (s : State) (r : ImageRead) : State :=
  match s.imageToInstall r with
  | some i => ({ s with stored := s.storedAfterRead r }).install i .valid
  | none =>
    if s.tab.straps.load then ({ s with stored := s.storedAfterRead r }).install defaultImage .bad
    else s.install defaultImage .notLoaded

/-- IMAGE_LOAD_COMPLETE, R191. -/
def execImageLoadComplete (r : ImageRead) (s : State) : Result :=
  .next (s.whileRunning (fun s =>
    match s.eng.part with
    | .starting => s.finishStart r
    | .ready | .parked | .waking => s))

/-! ## A save (R8, R193) -/

/-- Something that happens to a save that is WRITING. -/
def State.whileSaving (s : State) (f : State → State) : State :=
  match s.cfc.save with
  | .writing => f s
  | .none | .done | .failed => s

/-- Something that happens between the end of one scan and the start of the next (R8). -/
def State.betweenScans (s : State) (f : State → State) : State :=
  match s.sbe.scan with
  | none => f s
  | some _ => s

/-- The last piece written and read back: DONE, VALID, the image tuning the snapshot's (R193). -/
def State.saveDone (s : State) : State :=
  { s with
    cfc := { s.cfc with
      save := .done
      snapshot := none
      imageStatus := .valid
      imageTuning := (s.cfc.snapshot.map (·.tuning)).getD s.cfc.imageTuning }
    stored := s.cfc.snapshot }

/-- SAVE_PIECE, R8: the stored image is marked invalid from the first piece on (R193). -/
def execSavePiece (s : State) : Result :=
  .next (s.whileRunning (fun s => s.whileSaving (fun s => s.betweenScans (fun s => { s with stored := none }))))

/-- SAVE_COMPLETE, R193. -/
def execSaveComplete (s : State) : Result :=
  .next (s.whileRunning (fun s => s.whileSaving (fun s => s.betweenScans State.saveDone)))

/-- SAVE_FAILED, R193. -/
def execSaveFailed (s : State) : Result :=
  .next (s.whileRunning (fun s => s.whileSaving State.saveFails))

/-! ## The panel link (R163, R164) -/

/-- PANEL_TARGET_LINE, R164: "T=", the rest of the line, and a carriage return. -/
def execPanelTargetLine (rest : List Byte) (s : State) : Result :=
  .next (s.whileRunning (fun s => s.panelChars ([0x54, 0x3D] ++ rest ++ [0x0D])))

/-- PANEL_QUERY_LINE, R164: "Q" and a carriage return. -/
def execPanelQueryLine (s : State) : Result :=
  .next (s.whileRunning (fun s => s.panelChars [0x51, 0x0D]))

/-- PANEL_BAD_LINE, R163: any other line and a carriage return. -/
def execPanelBadLine (line : List Byte) (s : State) : Result :=
  .next (s.whileRunning (fun s => s.panelChars (line ++ [0x0D])))

/-- PANEL_LINE_TIMEOUT, R163: characters, a pause of more than 1 second, which empties the buffer, and characters after it. -/
def execPanelLineTimeout (before after : List Byte) (s : State) : Result :=
  .next (s.whileRunning (fun s => (s.panelChars before).emptyLine.panelChars after))

/-- PANEL_REPLY_SENT, R163. -/
def execPanelReplySent (s : State) : Result :=
  .next (s.whileRunning (fun s => { s with panel := s.panel.sent }))

end Sys2Proof.Machine
end

