-- ==== Sys2Proof/Machine/Dispatch.lean ====
section
/-! DEFINITION. The dispatch of a command to its meaning: one arm for each constructor of Instr. -/

namespace Sys2Proof.Machine

open Sys2Proof

/-- The effect of a command on everything but the queue. -/
def exec (i : Instr) (s : State) : Host.Outcome State Fault Refusal :=
  match i with
  | .identify f => Sys2Proof.Machine.execIdentify f s
  | .readStatus f => Sys2Proof.Machine.execReadStatus f s
  | .startOrder f channel firstSlot cls tag waitLimit => Sys2Proof.Machine.execStartOrder f channel firstSlot cls tag waitLimit s
  | .haltOrder f channel => Sys2Proof.Machine.execHaltOrder f channel s
  | .queryChannel f channel => Sys2Proof.Machine.execQueryChannel f channel s
  | .fetchReport f => Sys2Proof.Machine.execFetchReport f s
  | .writeSegments f body => Sys2Proof.Machine.execWriteSegments f body s
  | .readSegments f first count => Sys2Proof.Machine.execReadSegments f first count s
  | .writePath f entry write => Sys2Proof.Machine.execWritePath f entry write s
  | .readPath f entry => Sys2Proof.Machine.execReadPath f entry s
  | .writeZone f zone write => Sys2Proof.Machine.execWriteZone f zone write s
  | .readZone f zone => Sys2Proof.Machine.execReadZone f zone s
  | .writeSensorMap f entries => Sys2Proof.Machine.execWriteSensorMap f entries s
  | .checksum f area first last => Sys2Proof.Machine.execChecksum f area first last s
  | .readMovers f => Sys2Proof.Machine.execReadMovers f s
  | .exchangeRole f role force => Sys2Proof.Machine.execExchangeRole f role force s
  | .testOutput f item => Sys2Proof.Machine.execTestOutput f item s
  | .setCabinTarget f hundredths => Sys2Proof.Machine.execSetCabinTarget f hundredths s
  | .comfortOn f settings => Sys2Proof.Machine.execComfortOn f settings s
  | .comfortOff f => Sys2Proof.Machine.execComfortOff f s
  | .panelLock f on => Sys2Proof.Machine.execPanelLock f on s
  | .setTuning f tuning autoRelease => Sys2Proof.Machine.execSetTuning f tuning autoRelease s
  | .setMode f mode => Sys2Proof.Machine.execSetMode f mode s
  | .setLock f locks => Sys2Proof.Machine.execSetLock f locks s
  | .releasePathLock f => Sys2Proof.Machine.execReleasePathLock f s
  | .setPathWindow f window => Sys2Proof.Machine.execSetPathWindow f window s
  | .saveConfiguration f => Sys2Proof.Machine.execSaveConfiguration f s
  | .releaseLockout f => Sys2Proof.Machine.execReleaseLockout f s
  | .park f => Sys2Proof.Machine.execPark f s
  | .reset f => Sys2Proof.Machine.execReset f s
  | .unknownRequest kind f => Sys2Proof.Machine.execUnknownRequest kind f s
  | .busy kind f => Sys2Proof.Machine.execBusy kind f s
  | .frameError bytes after => Sys2Proof.Machine.execFrameError bytes after s
  | .frameTimeout bytes => Sys2Proof.Machine.execFrameTimeout bytes s
  | .replySent => Sys2Proof.Machine.execReplySent s
  | .powerOnReset straps => Sys2Proof.Machine.execPowerOnReset straps s
  | .resetPinRelease straps => Sys2Proof.Machine.execResetPinRelease straps s
  | .imageLoadComplete read => Sys2Proof.Machine.execImageLoadComplete read s
  | .scanStart => Sys2Proof.Machine.execScanStart s
  | .parkedScanStart => Sys2Proof.Machine.execParkedScanStart s
  | .wakingScanStart => Sys2Proof.Machine.execWakingScanStart s
  | .sensorRead input reply => Sys2Proof.Machine.execSensorRead input reply s
  | .inputLost input => Sys2Proof.Machine.execInputLost input s
  | .scanEnd feedback order => Sys2Proof.Machine.execScanEnd feedback order s
  | .meterHoldExpiry meter => Sys2Proof.Machine.execMeterHoldExpiry meter s
  | .reservePendingStart channel => Sys2Proof.Machine.execReservePendingStart channel s
  | .segmentTimeLimit channel => Sys2Proof.Machine.execSegmentTimeLimit channel s
  | .leadEnd channel => Sys2Proof.Machine.execLeadEnd channel s
  | .waitLimitReached channel => Sys2Proof.Machine.execWaitLimitReached channel s
  | .runDownEnd channel => Sys2Proof.Machine.execRunDownEnd channel s
  | .equalizeEnd => Sys2Proof.Machine.execEqualizeEnd s
  | .openLoad output => Sys2Proof.Machine.execOpenLoad output s
  | .stall output => Sys2Proof.Machine.execStall output s
  | .outputTestEnd output => Sys2Proof.Machine.execOutputTestEnd output s
  | .handOverEnd => Sys2Proof.Machine.execHandOverEnd s
  | .valveAtPosition valve => Sys2Proof.Machine.execValveAtPosition valve s
  | .valveTravelTimeout valve => Sys2Proof.Machine.execValveTravelTimeout valve s
  | .valveFeedbackLost valve => Sys2Proof.Machine.execValveFeedbackLost valve s
  | .valveDrift valve => Sys2Proof.Machine.execValveDrift valve s
  | .valveTestFirstLeg valve => Sys2Proof.Machine.execValveTestFirstLeg valve s
  | .valveTestPass valve => Sys2Proof.Machine.execValveTestPass valve s
  | .parkTimerExpiry => Sys2Proof.Machine.execParkTimerExpiry s
  | .outputEnableEnd => Sys2Proof.Machine.execOutputEnableEnd s
  | .savePiece => Sys2Proof.Machine.execSavePiece s
  | .saveComplete => Sys2Proof.Machine.execSaveComplete s
  | .saveFailed => Sys2Proof.Machine.execSaveFailed s
  | .panelTargetLine rest => Sys2Proof.Machine.execPanelTargetLine rest s
  | .panelQueryLine => Sys2Proof.Machine.execPanelQueryLine s
  | .panelBadLine line => Sys2Proof.Machine.execPanelBadLine line s
  | .panelLineTimeout before after => Sys2Proof.Machine.execPanelLineTimeout before after s
  | .resetPinAssert => Sys2Proof.Machine.execResetPinAssert s
  | .powerLoss => Sys2Proof.Machine.execPowerLoss s
  | .panelReplySent => Sys2Proof.Machine.execPanelReplySent s

end Sys2Proof.Machine
end

