-- ==== Sys2Proof/Safety.lean ====
section
/-! DEFINITION. What the statements about the block speak of: which commands are requests, the state in which a request is judged and the state its reply leaves, and the invariants of the block. -/

namespace Sys2Proof.Machine

open Sys2Proof

/-! ## Requests -/

/-- The kind and the frame of a request of the catalogue (R183); no other command has one. -/
def requestOf : Instr → Option (Byte × Frame)
  | .identify f => some (0x01, f)
  | .readStatus f => some (0x02, f)
  | .startOrder f _ _ _ _ _ => some (0x10, f)
  | .haltOrder f _ => some (0x11, f)
  | .queryChannel f _ => some (0x12, f)
  | .fetchReport f => some (0x13, f)
  | .writeSegments f _ => some (0x20, f)
  | .readSegments f _ _ => some (0x21, f)
  | .writePath f _ _ => some (0x22, f)
  | .readPath f _ => some (0x23, f)
  | .writeZone f _ _ => some (0x24, f)
  | .readZone f _ => some (0x25, f)
  | .writeSensorMap f _ => some (0x26, f)
  | .checksum f _ _ _ => some (0x27, f)
  | .readMovers f => some (0x30, f)
  | .exchangeRole f _ _ => some (0x31, f)
  | .testOutput f _ => some (0x32, f)
  | .setCabinTarget f _ => some (0x40, f)
  | .comfortOn f _ => some (0x41, f)
  | .comfortOff f => some (0x42, f)
  | .panelLock f _ => some (0x43, f)
  | .setTuning f _ _ => some (0x50, f)
  | .setMode f _ => some (0x51, f)
  | .setLock f _ => some (0x52, f)
  | .releasePathLock f => some (0x53, f)
  | .setPathWindow f _ => some (0x54, f)
  | .saveConfiguration f => some (0x55, f)
  | .releaseLockout f => some (0x56, f)
  | .park f => some (0x57, f)
  | .reset f => some (0x58, f)
  | _ => none

/-- A body that a request frame can carry (R187). -/
def fitsFrame (body : List Byte) : Prop := body.length ≤ 120

/-- The port is at the start of a frame: the part runs and the port is HUNTING (R178). -/
def State.listening (s : State) : Prop := s.run = .running ∧ s.link.rx = .hunting

/-- The port takes a request now: it is at the start of a frame, the slot is FREE and no reply waits (R180). -/
def State.free (s : State) : Prop := s.listening ∧ s.link.slot = .free ∧ s.link.waiting = none

/-- A request goes to its owner: the port takes it, the part is not STARTING, and its body has the request's length (R181). -/
def State.accepts (s : State) (f : Frame) : Prop :=
  s.free ∧ s.eng.part ≠ .starting ∧ fitsFrame f.body ∧ f.lengthFits = true

/-- The state a taken request is judged in: the port HUNTING with its slot TAKEN, a PARKED part woken, the park timer at 0 (R178, R180, R181, R196). -/
def State.asTaken (s : State) : State := s.frameComplete.takeSlot

/-- A state with the reply of the taken request given to the transmitter (R179, R180). -/
def State.answered (s : State) (f : Frame) (kind : Byte) (code : ReplyCode) (body : ReplyBody) : State :=
  s.putLink (s.link.transmit ⟨kind, f.seq, code, body, true, false⟩)

/-- A rule's own events of the plant and the clock: each acts on the engine alone (R18 to R128). -/
def plantEvent : Instr → Bool
  | .meterHoldExpiry _ | .reservePendingStart _ | .segmentTimeLimit _ | .leadEnd _ | .waitLimitReached _ => true
  | .runDownEnd _ | .equalizeEnd | .openLoad _ | .stall _ | .outputTestEnd _ | .handOverEnd => true
  | .valveAtPosition _ | .valveTravelTimeout _ | .valveFeedbackLost _ | .valveDrift _ => true
  | .valveTestFirstLeg _ | .valveTestPass _ => true
  | _ => false

/-- The commands that restart the part or install an image (R190, R191, R193). -/
def restartsOrInstalls : Instr → Bool
  | .powerOnReset _ | .resetPinRelease _ | .resetPinAssert | .powerLoss | .imageLoadComplete _ => true
  | _ => false

/-- The park conditions of R196. -/
def State.quiet (s : State) : Prop :=
  (∀ c, s.eng.order c = none) ∧ (s.eng.crg.state = .disabled ∨ s.eng.crg.state = .suspended)
  ∧ (∀ z, (s.eng.zone z).state = .normal) ∧ (∀ o, (s.eng.output o).state ≠ .testing) ∧ (∀ v, (s.eng.valve v).test = none)
  ∧ s.cfc.save ≠ .writing

/-- What the entry to PARKED makes of a part, and what it keeps (R21, R131, R196). -/
def State.parksTo (s t : State) : Prop :=
  t.eng.part = .parked
  ∧ (∀ o, t.eng.output o = { s.eng.output o with target := 0, level := 0 })
  ∧ (∀ v, t.eng.valve v = { s.eng.valve v with commanded := none, driftCount := 0 })
  ∧ t.eng.ost.roleMap = s.eng.ost.roleMap ∧ t.eng.ost.handOver = none
  ∧ (∀ m, t.eng.meter m = ⟨.invalid, none, none, 0, none, 0, false, false⟩)
  ∧ t.eng.mar = s.eng.mar ∧ t.eng.reports = s.eng.reports ∧ t.eng.crg = s.eng.crg ∧ t.eng.zones = s.eng.zones
  ∧ t.eng.channels = s.eng.channels ∧ t.cfc = { s.cfc with parkTimer := 0 } ∧ t.tab = s.tab

/-! ## Scan ends -/

/-- A full scan of a READY part is at its end, no output overloads, and nothing but the scan end's own work is taken within the step (log 3). -/
def State.atFullScanEnd (s : State) (f : Feedback) (ord : ScanOrder) : Prop :=
  s.run = .running ∧ s.sbe.scan = some ⟨.full, []⟩ ∧ s.eng.part = .ready ∧ ord.due = .separate ∧ ord.channelsFirst.Nodup
  ∧ ∀ n, (Bank.nth f.outputs n).current < 1200

/-- The scan's reading leaves the zone in the state it has (R137). -/
def State.zoneStands (s : State) (z : Zone) : Prop :=
  (s.eng.zone z).state = zoneNext (s.tab.zone z).limits (Bank.nth s.sbe.formReadings z.idx) (s.eng.zone z).state

/-- No channel but one runs an order, no reserve start is pending, and no channel without an order claims or holds anything (R91, R94). -/
def Engine.settledOn (e : Engine) (c : ChannelNo) : Prop :=
  (∀ c', c' ≠ c → e.order c' = none) ∧ (∀ z, (e.zone z).pending = false)
  ∧ ∀ g ∈ e.mar.claims ++ e.mar.grants, e.order g.channel ≠ none

/-- A RUNNING order goes on through the scan end that comes: its meter is VALID with valid inputs, it neither counts down nor chains, has no time limit, and neither zone of its path stops it (R14, R62). -/
def State.keepsRunning (s : State) (o : Order) : Prop :=
  let p := s.tab.entry o.copy.path
  o.phase = .running ∧ (s.eng.meter p.meter).state = .valid ∧ s.sbe.meterInputs p.meter ≠ none
  ∧ o.remaining = none ∧ o.copy.timeLimit = 0 ∧ o.copy.flags.continue_ = false ∧ o.copy.flags.next = false
  ∧ depletedVerdict (s.tab.zone p.source).limits (Bank.nth s.sbe.formReadings p.source.idx) = false
  ∧ fullVerdict (s.tab.zone p.sink).limits (Bank.nth s.sbe.formReadings p.sink.idx) = false

/-- A SETTING order goes on through the scan end that comes: a valve of its path does not stand (R56). -/
def State.keepsSetting (s : State) (o : Order) : Prop :=
  o.phase = .setting ∧ ∃ y ∈ (s.tab.entry o.copy.path).valves,
    ¬ ((s.eng.valve y.1).state = .atPosition ∧ (s.eng.valve y.1).commanded = some y.2)

/-- An order that runs down to its end with a stated cause (R75, R78). -/
def Order.endsWith (o : Order) (g : Ending) : Prop := ∃ r, o.phase = .ending r ∧ r.purpose = .endWith g

/-! ## Invariants -/

/-- The relation of status, miss count and value of R9's table. -/
def InputRec.consistent (r : InputRec) : Prop :=
  (r.status = .valid ∧ r.misses ≤ 2 ∧ r.value.isSome) ∨ (r.status = .lost ∧ r.misses = 3 ∧ r.value = none)

/-- Every input: a record exactly when the map under which the last scan began maps it, its fields related as R9's table gives, its value in the range of its role (R2, R4, R9). -/
def SensorBus.inputsOk (b : SensorBus) : Prop :=
  ∀ i, match Bank.nth b.inputs i with
    | none => Bank.nth b.applied i = .unused
    | some r => Bank.nth b.applied i ≠ .unused ∧ r.consistent ∧ ∀ v, r.value = some v → (Bank.nth b.applied i).accepts v = true

/-- No two reports in the queue are of the same kind about the same thing (R167). -/
def reportsDistinct (q : List Report) : Prop := (q.map Report.key).Nodup

/-- Every channel is IDLE. -/
def Engine.noOrders (e : Engine) : Prop := ∀ c, e.order c = none

/-- The regulator starts nothing: DISABLED or SUSPENDED. -/
def Engine.comfortQuiet (e : Engine) : Prop := e.crg.state = .disabled ∨ e.crg.state = .suspended

/-- Every output is driven at 0. -/
def Engine.levelsZero (e : Engine) : Prop := ∀ o, (e.output o).level = 0

/-- Outside READY no order runs, the regulator starts none, and every output is at 0 (R196, R197). -/
def Engine.restsOutsideReady (e : Engine) : Prop :=
  e.part ≠ .ready → e.noOrders ∧ e.comfortQuiet ∧ e.levelsZero

/-- The reply places as R180 keeps them: a reply waits only behind one being sent, and the slot is TAKEN exactly while one of the two is the taken request's. -/
def LinkPort.repliesOk (l : LinkPort) : Prop :=
  (l.sending = none → l.waiting = none)
  ∧ (l.slot = .taken ↔ l.sending.any (·.ofSlot) ∨ l.waiting.any (·.ofSlot))
  ∧ ¬ (l.sending.any (·.ofSlot) ∧ l.waiting.any (·.ofSlot))

/-- The panel port as R163 keeps it: a reply waits only behind one being sent, and the buffer holds at most 16 characters. -/
def PanelPort.placesOk (p : PanelPort) : Prop := (p.sending = none → p.waiting = none) ∧ p.buffer.length ≤ 16

/-- A snapshot is held exactly while a save is WRITING (R193). -/
def Control.saveOk (c : Control) : Prop := c.save = .writing ↔ c.snapshot.isSome = true

end Sys2Proof.Machine
end

