-- ==== Sys2Proof/Certificates/Slice0/Obligations.lean ====
section
/-! DEFINITION. The statements about the block for the provers: how a step runs, what each command does where it completes, what it leaves alone, and the invariants every step keeps. -/

open Sys2Proof Sys2Proof.Machine

/-! ## The step, and the machine after reset -/

/-- A step with a command at the front of the queue is the command's effect on the state with the queue's rest. -/
def Obligations.StepRunsFront : Prop :=
  ∀ (s : State) (c : Instr) (rest : List Instr), s.pending = c :: rest → step s = exec c (s.withPending rest)

/-- A step on an empty queue idles, save in a PARKED part, where it is 100 milliseconds of the clock (the model's choice, log 6): a running equalize falls by one tenth of a second, and as it comes to 0 the target mode is the compressor's, its circuit is set, the condition is STEADY and a grant scan follows (R105). -/
def Obligations.IdleStep : Prop :=
  ∀ s : State, s.pending = [] →
    ((s.run ≠ .running ∨ s.eng.part ≠ .parked) → step s = .next s)
    ∧ (s.run = .running → s.eng.part = .parked →
      let after (e : Engine) : State :=
        { s with eng := e, sbe := { s.sbe with parkedTime := min 100 (s.sbe.parkedTime + 1) } }
      (s.eng.mar.comp.condition = .steady → step s = .next (after s.eng))
      ∧ (∀ m n, s.eng.mar.comp.condition = .equalizing m n → 1 < n →
          step s = .next (after { s.eng with mar := { s.eng.mar with
            comp := { s.eng.mar.comp with condition := .equalizing m (n - 1) } } }))
      ∧ ∀ m n, s.eng.mar.comp.condition = .equalizing m n → n ≤ 1 →
          step s = .next (after (Engine.grantScan s.tab { s.eng with
            mar := { s.eng.mar with comp := ⟨some m, .steady⟩ }, ost := { s.eng.ost with circuit := m } })))

/-- The values the spec gives the part after a power-on reset, in the state after reset. One is the model's: the soft-limit verdicts, which R136 calls absent, are held clear (log 1). Of the fields for which the spec gives no value, and log 1 names one, no other is stated. -/
def Obligations.ResetMachine : Prop :=
  State.reset.run = .running ∧ State.reset.pending = []
  ∧ State.reset.eng.part = .starting ∧ State.reset.eng.noOrders ∧ (∀ c, (State.reset.eng.channel c).recordQueued = false)
  ∧ State.reset.eng.mar = ⟨[], [], ⟨none, .steady⟩⟩
  ∧ (∀ o, (State.reset.eng.output o).state = .inService ∧ (State.reset.eng.output o).fault = none
      ∧ (State.reset.eng.output o).target = 0 ∧ (State.reset.eng.output o).level = 0
      ∧ (State.reset.eng.output o).openCount = 0 ∧ (State.reset.eng.output o).stallCount = 0)
  ∧ (∀ v, (State.reset.eng.valve v).state = .atPosition ∧ (State.reset.eng.valve v).commanded = none
      ∧ (State.reset.eng.valve v).fault = none ∧ (State.reset.eng.valve v).test = none
      ∧ (State.reset.eng.valve v).missCount = 0 ∧ (State.reset.eng.valve v).driftCount = 0)
  ∧ State.reset.eng.ost.handOver = none
  ∧ (∀ m, State.reset.eng.meter m = ⟨.invalid, none, none, 0, none, 0, false, false⟩)
  ∧ (∀ z, State.reset.eng.zone z = ⟨.normal, false, false, false, ⟨none, none, none, .none⟩⟩)
  ∧ (∀ z : Zone, Bank.nth State.reset.sbe.readings z.idx = ⟨0, none, none, none⟩)
  ∧ State.reset.eng.crg.state = .disabled ∧ State.reset.eng.reports = []
  ∧ State.reset.cfc.mode = .operating ∧ State.reset.cfc.lockout = true ∧ State.reset.cfc.save = .none
  ∧ State.reset.cfc.parkTimer = 0
  ∧ (∀ i, Bank.nth State.reset.tab.slots i = .empty)
  ∧ State.reset.link = ⟨.hunting, .free, none, none⟩
  ∧ State.reset.panel.buffer = [] ∧ State.reset.panel.lock = false

/-! ## Supply, reset pin, start-up -/

/-- What the events of supply and reset pin make of the part (R190, R193): the straps latched, the part STARTING and everything volatile at its reset value, with the values of log 1 where the spec gives none and the compressor's circuit as it stood (R117). The model's choices: a release without a low pin resets too (log 29); a stopped part holds the reset values, and a cut in a WRITING save leaves the stored image invalid whatever made it (log 21). -/
def Obligations.SupplyAndPin : Prop :=
  ∀ (s : State) (straps : Straps),
    let kept := if s.cfc.save = .writing then none else s.stored
    let circuit := s.eng.ost.circuit
    exec (.powerOnReset straps) s = .next (State.fresh straps circuit kept s.pending)
    ∧ (s.run ≠ .noSupply → exec (.resetPinRelease straps) s = .next (State.fresh straps circuit kept s.pending))
    ∧ (s.run = .running →
        exec .resetPinAssert s = .next { State.fresh s.tab.straps circuit kept s.pending with run := .heldInReset })
    ∧ (s.run ≠ .noSupply →
        exec .powerLoss s = .next { State.fresh s.tab.straps circuit kept s.pending with run := .noSupply })

/-- A good image read at start-up with LOAD latched set is installed, and the part enters READY (R191, R192, R116). That a supplied image is the stored one from then on is the model's (log 20). -/
def Obligations.ImageInstalled : Prop :=
  ∀ (s : State) (i : Image) (r : ImageRead), s.run = .running → s.eng.part = .starting → s.tab.straps.load = true →
    (r = .supplied i ∨ (r = .stored ∧ s.stored = some i)) → imageOk i = true →
    ∃ t, exec (.imageLoadComplete r) s = .next t ∧ t.eng.part = .ready ∧ t.cfc.imageStatus = .valid
      ∧ t.tab.paths = i.paths ∧ t.tab.zones = i.zones ∧ t.sbe.map = i.map ∧ t.tab.tuning = i.tuning
      ∧ (∀ k : Fin 96, Bank.nth t.tab.slots k
          = if h : 80 ≤ k.val then Bank.nth i.slots ⟨k.val - 80, by omega⟩ else .empty)
      ∧ t.cfc.locks = i.locks ∧ t.cfc.window = i.window ∧ t.eng.crg.settings = i.comfort ∧ t.eng.crg.target = i.target
      ∧ t.cfc.imageTuning = i.tuning ∧ t.cfc.autoRelease = i.autoRelease ∧ t.cfc.lockout = !i.autoRelease
      ∧ t.eng.ost.roleMap = (if roleMapOk s.tab.straps.spare i.roleMap then i.roleMap else defaultRoleMap)
      ∧ (∀ k, Bank.nth t.sbe.inputs k = if Bank.nth i.map k = .unused then none else some ⟨.lost, none, 3⟩)
      ∧ t.cfc.parkTimer = 0 ∧ t.stored = some i

/-- Without a good image the defaults are installed as a whole and lockout stays set; the status is NOT-LOADED with LOAD latched clear and BAD otherwise (R191, R192). -/
def Obligations.DefaultsInstalled : Prop :=
  ∀ (s : State) (r : ImageRead), s.run = .running → s.eng.part = .starting →
    (s.tab.straps.load = false ∨ r = .noAnswer ∨ r = .crcMismatch ∨ (r = .stored ∧ s.stored = none)
      ∨ ∃ i, (r = .supplied i ∨ (r = .stored ∧ s.stored = some i)) ∧ imageOk i = false) →
    ∃ t, exec (.imageLoadComplete r) s = .next t ∧ t.eng.part = .ready
      ∧ t.cfc.imageStatus = (if s.tab.straps.load then .bad else .notLoaded)
      ∧ (∀ n, Bank.nth t.tab.paths n = none) ∧ t.tab.zones = shippedZones ∧ (∀ k, Bank.nth t.sbe.map k = .unused)
      ∧ (∀ k, Bank.nth t.tab.slots k = .empty) ∧ t.cfc.locks = ⟨false, false, false⟩ ∧ t.cfc.window = none
      ∧ t.eng.ost.roleMap = defaultRoleMap ∧ t.eng.crg.settings = ⟨none, none, 10, 40, 900⟩ ∧ t.eng.crg.target = 210
      ∧ t.tab.tuning = ⟨50, 5, 30, 60, 600, 80, 10, 36, 3, false⟩ ∧ t.cfc.imageTuning = t.tab.tuning
      ∧ t.cfc.autoRelease = false ∧ t.cfc.lockout = true

/-! ## Frames and replies -/

/-- A frame that finds the slot TAKEN is answered BUSY, and one that finds a reply waiting is discarded; in both cases nothing else happens but the waking of a PARKED part (R180, R181). -/
def Obligations.BusyAndDiscarded : Prop :=
  ∀ s : State, s.listening →
    (s.link.slot = .taken → s.link.waiting = none →
      (∀ c kind f, requestOf c = some (kind, f) → fitsFrame f.body →
        exec c s = .next (s.frameComplete.putLink
          (s.frameComplete.link.transmit ⟨kind + 0x80, f.seq, .busy, .none, false, false⟩)))
      ∧ ∀ kind f, fitsFrame f.body → exec (.busy kind f) s = .next (s.frameComplete.putLink
          (s.frameComplete.link.transmit
            ⟨if kind.toNat < 0x80 then kind + 0x80 else 0x80, f.seq, .busy, .none, false, false⟩)))
    ∧ (s.link.waiting ≠ none → ∀ c kind f, requestOf c = some (kind, f) → fitsFrame f.body →
        exec c s = .next s.frameComplete)

/-- A request taken while STARTING is answered NOT-READY, save IDENTIFY and READ STATUS, and one whose body has the wrong length BAD-ARGUMENT; neither has an effect of its own (R181). That the length is judged before the arguments is the model's (log 26). -/
def Obligations.TurnedAwayByThePort : Prop :=
  ∀ (s : State) (c : Instr) (kind : Byte) (f : Frame), requestOf c = some (kind, f) → s.free →
    fitsFrame f.body →
    (s.eng.part = .starting → kind ≠ 0x01 → kind ≠ 0x02 →
      exec c s = .next (s.asTaken.answered f (kind + 0x80) .notReady .none))
    ∧ ((s.eng.part ≠ .starting ∨ kind = 0x01 ∨ kind = 0x02) → f.lengthFits = false →
      exec c s = .next (s.asTaken.answered f (kind + 0x80) .badArgument .none))

/-- Every request that the port takes is answered once: the slot is TAKEN, one reply with the request's kind plus 80 and its sequence number is given to the transmitter, its body beginning with the reply code and at most 1,024 bytes long, and the port is otherwise as it was. The request is the same one when the port holds its first bytes already (R178 to R180, R187). -/
def Obligations.EveryRequestAnswered : Prop :=
  ∀ (s : State) (c : Instr) (kind : Byte) (f : Frame), requestOf c = some (kind, f) → s.free → fitsFrame f.body →
    (∃ t r, exec c s = .next t ∧ r.kind = kind + 0x80 ∧ r.seq = f.seq ∧ r.ofSlot = true
      ∧ t.link = (if s.link.sending = none then ⟨.hunting, .taken, some r, none⟩
          else ⟨.hunting, .taken, s.link.sending, some r⟩)
      ∧ r.body_.head? = some r.code.value ∧ r.body_.length ≤ 1024)
    ∧ ∀ n, n < f.body.length + 5 →
        exec c (s.putRx (.receiving ((requestFrame kind f.seq f.body).tail.take n) false)) = exec c s

/-- What no request touches: the sensors' values and readings, the straps, the stored image, the image tuning and image status, the panel's lines and replies, the other commands that wait. -/
def Obligations.RequestsLeaveAlone : Prop :=
  ∀ (s t : State) (c : Instr) (kind : Byte) (f : Frame), requestOf c = some (kind, f) → exec c s = .next t →
    t.run = s.run ∧ t.pending = s.pending ∧ t.stored = s.stored ∧ t.tab.straps = s.tab.straps
    ∧ t.sbe.inputs = s.sbe.inputs ∧ t.sbe.applied = s.sbe.applied ∧ t.sbe.readings = s.sbe.readings
    ∧ t.cfc.imageStatus = s.cfc.imageStatus ∧ t.cfc.imageTuning = s.cfc.imageTuning
    ∧ t.panel = { s.panel with lock := t.panel.lock }

/-- A frame of a kind outside the catalogue is answered UNKNOWN-REQUEST. A frame whose CRC does not match, one with a damaged byte and one whose length is above 120 are answered FRAME-ERROR with kind 80 and sequence number 0 and wake nothing; bytes of no frame are discarded, and a frame cut off by a pause has no reply. The bytes after them are judged as they stand, after a pause from HUNTING (R178, R179, R181). That a damaged length byte counts as received is the model's (log 19). -/
def Obligations.FramesOfNoRequest : Prop :=
  ∀ s : State,
    (∀ kind f, catalogue.contains kind = false → s.free → fitsFrame f.body →
      exec (.unknownRequest kind f) s = .next (s.asTaken.putLink (s.asTaken.link.transmit
        ⟨if kind.toNat < 0x80 then kind + 0x80 else 0x80, f.seq, .unknownRequest, .none, true, false⟩)))
    ∧ (s.listening →
      let failed := if s.link.waiting = none then
          s.putLink (s.link.transmit ⟨0x80, 0, .frameError, .none, false, false⟩)
        else s
      (∀ kind seq body, fitsFrame body →
        (∀ crc : BitVec 16, crc ≠ crc16 (requestInner kind seq body) →
          exec (.frameError (goodBytes (0xA5 :: requestInner kind seq body ++ be16 crc.toNat)) []) s = .next failed)
        ∧ (∀ bytes : List RxByte, bytes.map (·.value) = (requestFrame kind seq body).tail → (∃ x ∈ bytes, x.damaged = true) →
          exec (.frameError (⟨0xA5, false⟩ :: bytes) []) s = .next failed)
        ∧ (∀ n, n < body.length + 6 →
          exec (.frameTimeout ⟨goodBytes ((requestFrame kind seq body).take n), []⟩) s = .next s))
      ∧ (∀ n : Byte, 120 < n.toNat → exec (.frameError [⟨0xA5, false⟩, ⟨n, false⟩] []) s = .next failed)
      ∧ (∀ bytes : List RxByte, (∀ x ∈ bytes, x.value ≠ 0xA5) → exec (.frameError bytes []) s = .next s))
    ∧ (s.run = .running → ∀ bytes after t, exec (.frameError bytes []) s = .next t →
        exec (.frameError bytes after) s = exec (.frameError after []) t
        ∧ exec (.frameTimeout ⟨bytes, after⟩) s = exec (.frameError after []) (t.putRx .hunting))

/-- When a reply has left, the waiting one follows it, and the slot is FREE if the reply was the taken request's (R180). -/
def Obligations.ReplyLeaves : Prop :=
  ∀ (s : State) (r : TxReply), s.run = .running → s.link.sending = some r → r.resets = false →
    exec .replySent s = .next (s.putLink { s.link with
      slot := if r.ofSlot then .free else s.link.slot, sending := s.link.waiting, waiting := none })

/-- RESET is answered OK at once, and its effects follow its reply: a save abandoned, lockout set, the tuning set returned unless KEEP, every order, grant, report and zone trip cleared, the outputs at 0, the regulator DISABLED, the port FREE; what R198 keeps is kept. -/
def Obligations.ResetAfterItsReply : Prop :=
  (∀ s f, s.accepts f → exec (.reset f) s = .next (s.asTaken.putLink
    (s.asTaken.link.transmit ⟨0xD8, f.seq, .ok, .none, true, true⟩)))
  ∧ ∀ (s : State) (r : TxReply), s.run = .running → s.link.sending = some r → r.resets = true → r.ofSlot = true →
    ∃ t, exec .replySent s = .next t
      ∧ t.link = { s.link with slot := .free, sending := s.link.waiting, waiting := none }
      ∧ t.eng.noOrders ∧ (∀ c, (t.eng.channel c).recordQueued = false) ∧ t.eng.reports = []
      ∧ t.eng.mar = ⟨[], [], ⟨none, .steady⟩⟩ ∧ t.eng.levelsZero ∧ t.eng.ost.handOver = none
      ∧ (∀ o, (t.eng.output o).fault = (s.eng.output o).fault
          ∧ (t.eng.output o).state = if (s.eng.output o).state = .inService then .inService else .faulted)
      ∧ (∀ v, (t.eng.valve v).commanded = none ∧ (t.eng.valve v).test = none
          ∧ (t.eng.valve v).fault = (s.eng.valve v).fault
          ∧ (t.eng.valve v).state = if (s.eng.valve v).state = .faulted then .faulted else .atPosition)
      ∧ (∀ z, (t.eng.zone z).state = .normal ∧ (t.eng.zone z).pending = false
          ∧ (t.eng.zone z).trip = ⟨none, none, none, .none⟩)
      ∧ t.eng.crg = { s.eng.crg with state := .disabled } ∧ t.eng.ost.roleMap = s.eng.ost.roleMap
      ∧ t.eng.ost.circuit = s.eng.ost.circuit ∧ t.eng.part = s.eng.part ∧ t.cfc.lockout = true ∧ t.cfc.parkTimer = 0
      ∧ t.cfc.mode = s.cfc.mode ∧ t.cfc.locks = s.cfc.locks ∧ t.cfc.window = s.cfc.window
      ∧ t.cfc.autoRelease = s.cfc.autoRelease
      ∧ (s.cfc.save = .writing → t.cfc.save = .failed ∧ t.cfc.imageStatus = .bad ∧ t.stored = none
          ∧ t.cfc.imageTuning = defaultTuning)
      ∧ (s.cfc.save ≠ .writing → t.cfc.save = s.cfc.save ∧ t.cfc.imageStatus = s.cfc.imageStatus
          ∧ t.stored = s.stored ∧ t.cfc.imageTuning = s.cfc.imageTuning)
      ∧ t.tab = { s.tab with tuning := if s.tab.tuning.keep then s.tab.tuning else t.cfc.imageTuning }
      ∧ t.sbe = s.sbe ∧ t.panel.buffer = [] ∧ t.panel.lock = s.panel.lock

/-! ## Identity, status, orders, reports -/

/-- IDENTIFY is answered OK in every part state with the identity of the part and the latched straps, the texts in ASCII behind their length bytes, and changes nothing but what taking a request changes (R184). The revision letter, which the spec does not give, is left free (log 8). -/
def Obligations.IdentifyAnswered : Prop :=
  ∀ s f, s.free → fitsFrame f.body → f.lengthFits = true →
    let i : Identity := ⟨0x0260, [0x55, 0x4C, 0x45, 0x4E, 0x47, 0x52, 0x41], [0x55, 0x48, 0x2D, 0x32, 0x36, 0x30],
      Config.revisionLetter, [6, 96, 24, 6, 32, 9, 6], s.tab.straps⟩
    exec (.identify f) s = .next (s.asTaken.answered f 0x81 .ok (.identity i))
    ∧ (⟨0x81, f.seq, .ok, .identity i, true, false⟩ : TxReply).body_.take 19
      = [0x00, 0x02, 0x60, 0x07, 0x55, 0x4C, 0x45, 0x4E, 0x47, 0x52, 0x41, 0x06, 0x55, 0x48, 0x2D, 0x32, 0x36, 0x30,
        Config.revisionLetter]

/-- READ STATUS is answered OK in every part state with the state as it stands when the request is taken (R185). -/
def Obligations.StatusAnswered : Prop :=
  ∀ s f, s.free → fitsFrame f.body → f.lengthFits = true →
    ∃ st, exec (.readStatus f) s = .next (s.asTaken.answered f 0x82 .ok (.status st))
      ∧ st.part = (if s.eng.part = .parked then .waking else s.eng.part)
      ∧ st.lockout = s.cfc.lockout ∧ st.mode = s.cfc.mode ∧ st.imageStatus = s.cfc.imageStatus ∧ st.save = s.cfc.save
      ∧ st.queueLength = s.eng.reports.length ∧ st.comfort = s.eng.crg.state
      ∧ st.zones = Zone.all.map (fun z => (s.eng.zone z).state)
      ∧ st.channels = allChannels.map (fun c => ⟨(s.eng.channel c).stateName, (s.eng.order c).map (·.cls),
          (s.eng.channel c).recordQueued, (s.eng.order c).any (·.meterHeld)⟩)
      ∧ (st.attention = true ↔ (∃ z, (s.eng.zone z).state ≠ .normal)
          ∨ (∃ o, (o.val < 8 ∨ s.tab.straps.spare = true) ∧ (s.eng.output o).state ≠ .inService)
          ∨ ∃ v, (s.eng.valve v).state = .faulted)

/-- A START ORDER that passes the cases of R50 and whose first segment passes its checks is TAKEN: the order enters WAITING with the context of R53, its set goes to the back of its class, a grant scan follows, then the prefetch when it is due (R50, R53, R89). With no other claim waiting, that grant scan grants a set whose entries are all grantable, begins a mode change for one that waits on its mode alone, and leaves one waiting whose first role has no IN-SERVICE output (R55, R93, R95 to R98, R100, R103, R119). -/
def Obligations.StartOrderTaken : Prop :=
  ∀ (s : State) (f : Frame) (c : ChannelNo) (slot : SlotNo) (cls : Fin 4) (tag limit : Nat) (x : Copy),
    s.accepts f → s.eng.part = .ready → slot.val ≤ 79 → cls ≠ 0 → limit ≤ 1800 → s.cfc.lockout = false →
    (c ≠ 5 ∨ s.eng.crg.state = .disabled) → s.eng.order c = none → (s.eng.channel c).recordQueued = false →
    s.eng.fetchFirst s.tab .host cls slot = .ok x →
    let o : Order := {
      phase := .waiting, owner := .host, tag := tag, cls := cls, firstSlot := some slot, copy := x
      previous := none, next := none, prefetchMade := false, failure := none, remaining := x.quantity.map (· * 10)
      carry := 0, delivered := 0, segTime := 0, runFlag := false, orderTime := 0, waitTimer := 0, waitLimit := limit
      demands := Vector.replicate 8 0, corrections := Vector.replicate 8 0, lead := none, meterHeld := false
      notes := ⟨false, false, 0⟩ }
    let e := (s.eng.putOrder c (some o)).submitBack s.tab c o
    exec (.startOrder f c.val slot.val cls.val tag limit) s
      = .next ((s.asTaken.putEngine ((Engine.grantScan s.tab e).prefetch s.tab c)).answered f 0x90 .taken .none)
    ∧ (s.eng.mar.claims = [] →
      let p := s.tab.entry x.path
      let mar := s.eng.mar
      let set : ClaimSet := ⟨c, cls, x.path, p.roles, p.valves, p.mode.circuit, none⟩
      let held (r : Role) := ∃ g ∈ mar.grants, g.names r = true
      let serves (r : Role) := (s.eng.output (s.eng.mapped r)).state = .inService
      let others := ∀ r n, (r, n) ∈ p.roles → serves r ∧ (r = .heater → sharesOn mar.grants .heater + n ≤ 100)
        ∧ (r = .chiller → ¬ held .chiller)
      let valves := ∀ v q, (v, q) ∈ p.valves → (s.eng.valve v).state ≠ .faulted
        ∧ ∀ g ∈ mar.grants, ∀ q', (v, q') ∈ g.valves → q' = q
      let compressor := ∀ n, (.compressor, n) ∈ p.roles → mar.comp.condition = .steady
        ∧ (¬ held .compressor → mar.comp.mode = none ∨ mar.comp.mode = p.mode.circuit)
        ∧ (held .compressor → mar.comp.mode = p.mode.circuit ∧ sharesOn mar.grants .compressor + n ≤ 100)
      (others → valves → compressor →
        let g := Engine.grantScan s.tab e
        let mode := if p.roles.any (fun y => y.1 = .compressor) ∧ mar.comp.mode = none then p.mode.circuit else mar.comp.mode
        g.mar = ⟨[], mar.grants ++ [set], ⟨mode, mar.comp.condition⟩⟩
        ∧ g.ost.circuit = mode.getD s.eng.ost.circuit
        ∧ g.order c = some { o with phase := .setting, demands := startDemands p x }
        ∧ (∀ c', c' ≠ c → g.order c' = s.eng.order c')
        ∧ (∀ v, (∀ y ∈ p.valves, y.1 ≠ v) → g.valve v = s.eng.valve v)
        ∧ ∀ v q, (v, q) ∈ p.valves → (∀ q', (v, q') ∈ p.valves → q' = q) →
          g.valve v = if (∃ h ∈ mar.grants, h.namesValve v = true)
              ∨ (s.eng.valve v).commanded = some q ∧ (s.eng.valve v).state = .atPosition then s.eng.valve v
            else { s.eng.valve v with
              state := .travelling, commanded := some q, travelTimer := s.tab.tuning.valveTimeout * 10, driftCount := 0 })
      ∧ (∀ n m m', (.compressor, n) ∈ p.roles → others → valves → mar.comp = ⟨some m, .steady⟩ → p.mode.circuit = some m' →
          m' ≠ m → ¬ held .compressor → Engine.grantScan s.tab e = { s.eng.putOrder c (some o) with
            mar := ⟨[{ set with reason := some .compressorEqualizing }], mar.grants,
              ⟨some m, .equalizing m' (s.tab.tuning.equalizeTime * 10)⟩⟩ })
      ∧ (∀ r n rest, p.roles = (r, n) :: rest → ¬ serves r → Engine.grantScan s.tab e = { s.eng.putOrder c (some o) with
            mar := { mar with claims := [{ set with reason := some (.outputUnavailable r) }] } }))

/-- A START ORDER whose first segment fails its checks is answered ENDED with the record of the failure, and the channel stays IDLE (R51). -/
def Obligations.StartOrderEnded : Prop :=
  ∀ (s : State) (f : Frame) (c : ChannelNo) (slot : SlotNo) (cls : Fin 4) (tag limit : Nat) (g : Ending),
    s.accepts f → s.eng.part = .ready → slot.val ≤ 79 → cls ≠ 0 → limit ≤ 1800 → s.cfc.lockout = false →
    (c ≠ 5 ∨ s.eng.crg.state = .disabled) → s.eng.order c = none → (s.eng.channel c).recordQueued = false →
    s.eng.fetchFirst s.tab .host cls slot = .error g →
    exec (.startOrder f c.val slot.val cls.val tag limit) s
      = .next (s.asTaken.answered f 0x90 .ended (.record ⟨c, tag, cls, g, none, some 0, 0, 0, ⟨false, false, 0⟩⟩))

/-- The cases in which R50 turns a START ORDER away, each with none before it. -/
def Obligations.StartOrderTurnedAway : Prop :=
  ∀ (s : State) (f : Frame) (c slot cls tag limit : Nat), s.accepts f →
    let inRange := c ≤ 5 ∧ slot ≤ 79 ∧ 1 ≤ cls ∧ cls ≤ 3 ∧ limit ≤ 1800
    let waking := s.eng.part = .waking ∨ s.eng.part = .parked
    let comfort := c = 5 ∧ s.eng.crg.state ≠ .disabled
    (¬ inRange → exec (.startOrder f c slot cls tag limit) s = .next (s.asTaken.answered f 0x90 .badArgument .none))
    ∧ (inRange → waking →
        exec (.startOrder f c slot cls tag limit) s = .next (s.asTaken.answered f 0x90 .unavailable (.unavailable .waking)))
    ∧ (inRange → ¬ waking → s.cfc.lockout = true →
        exec (.startOrder f c slot cls tag limit) s
          = .next (s.asTaken.answered f 0x90 .unavailable (.unavailable .lockout)))
    ∧ (inRange → ¬ waking → s.cfc.lockout = false → comfort →
        exec (.startOrder f c slot cls tag limit) s
          = .next (s.asTaken.answered f 0x90 .unavailable (.unavailable .comfort)))
    ∧ (inRange → ¬ waking → s.cfc.lockout = false → ¬ comfort →
        (∀ k : ChannelNo, k.val = c → (s.eng.order k).isSome = true ∨ (s.eng.channel k).recordQueued = true) →
        exec (.startOrder f c slot cls tag limit) s = .next (s.asTaken.answered f 0x90 .occupied .none))

/-- What HALT ORDER does to a host order, by the state of its channel (R79). The sequence of withdrawal, record, grant scan and pending start is the model's (log 10). -/
def Obligations.HaltOrder : Prop :=
  ∀ (s : State) (f : Frame) (c : ChannelNo), s.accepts f → (c ≠ 5 ∨ s.eng.crg.state = .disabled) →
    let n (o : Order) := (s.tab.entry o.copy.path).runDown * 10
    (s.eng.order c = none → exec (.haltOrder f c.val) s = .next (s.asTaken.answered f 0x91 .idle .none))
    ∧ (∀ o, s.eng.order c = some o → o.cls = 0 →
        exec (.haltOrder f c.val) s = .next (s.asTaken.answered f 0x91 .notPermitted .none))
    ∧ (∀ o, s.eng.order c = some o → o.cls ≠ 0 → o.owner = .host → o.phase = .waiting → s.eng.part = .ready →
        exec (.haltOrder f c.val) s = .next ((s.asTaken.putEngine
          ((Engine.grantScan s.tab (((s.eng.withdraw c).hand
            (.completion (recordOf c o ⟨.halted, .absent, none⟩))).putChannel c ⟨none, true⟩)).servePending s.tab
              (Engine.grantScan s.tab) c)).answered f 0x91 .taken .none))
    ∧ (∀ o, s.eng.order c = some o → o.cls ≠ 0 → o.owner = .host → (o.phase = .setting ∨ o.phase = .running) → 0 < n o →
        s.eng.part = .ready →
        exec (.haltOrder f c.val) s = .next ((s.asTaken.putEngine (s.eng.putOrder c (some { o with
          phase := .ending ⟨.endWith ⟨.halted, .absent, none⟩, n o, n o, o.demands, false⟩, carry := 0,
          notes := { o.notes with overrun := o.notes.overrun + o.carry }, failure := none, lead := none }))).answered
            f 0x91 .taken .none))
    ∧ (∀ o r, s.eng.order c = some o → o.cls ≠ 0 → o.owner = .host → o.phase = .ending r → r.purpose = .transition →
        s.eng.part = .ready →
        exec (.haltOrder f c.val) s = .next ((s.asTaken.putEngine (s.eng.putOrder c (some { o with
          phase := .ending { r with purpose := .endWith ⟨.halted, .absent, none⟩ }, failure := none }))).answered
            f 0x91 .taken .none))
    ∧ (∀ o r g, s.eng.order c = some o → o.cls ≠ 0 → o.phase = .ending r → r.purpose = .endWith g →
        exec (.haltOrder f c.val) s = .next (s.asTaken.answered f 0x91 .ending .none))

/-- QUERY CHANNEL takes the channel's completion record out of the queue when one stands there, and clears its flag; otherwise it answers ACTIVE with the context, or IDLE (R80, R173). -/
def Obligations.QueryChannel : Prop :=
  ∀ (s : State) (f : Frame), s.accepts f →
    (∀ c, 6 ≤ c → exec (.queryChannel f c) s = .next (s.asTaken.answered f 0x92 .badArgument .none))
    ∧ ∀ c : ChannelNo,
      (∀ r n before after, s.eng.reports = before ++ ⟨.completion r, n⟩ :: after → r.channel = c →
        (∀ x ∈ before ++ after, x.key ≠ .completion c) →
        exec (.queryChannel f c.val) s = .next ((s.asTaken.putEngine
          ({ s.asTaken.eng with reports := before ++ after }.putChannel c
            { s.eng.channel c with recordQueued := false })).answered f 0x92 .record (.record r)))
      ∧ ((∀ x ∈ s.eng.reports, x.key ≠ .completion c) →
          (∀ o, s.eng.order c = some o →
            exec (.queryChannel f c.val) s = .next (s.asTaken.answered f 0x92 .active (.snapshot (o.snapshot s.tab))))
          ∧ (s.eng.order c = none →
            exec (.queryChannel f c.val) s = .next (s.asTaken.answered f 0x92 .idle .none)))

/-- FETCH REPORT answers EMPTY on an empty queue; otherwise the oldest report leaves the queue and is returned with the number left, and a completion record's removal clears its channel's record-queued flag (R172). The reply body is the reply code, the report's kind byte, then its fields, a completion record in the 25 bytes of R189. -/
def Obligations.FetchReport : Prop :=
  ∀ (s : State) (f : Frame), s.accepts f →
    (s.eng.reports = [] → exec (.fetchReport f) s = .next (s.asTaken.answered f 0x93 .empty .none))
    ∧ (∀ r n rest, s.eng.reports = ⟨.completion r, n⟩ :: rest →
        exec (.fetchReport f) s = .next ((s.asTaken.putEngine ({ s.asTaken.eng with reports := rest }.putChannel r.channel
          { s.eng.channel r.channel with recordQueued := false })).answered f 0x93 .ok
            (.report ⟨.completion r, n⟩ rest.length)))
    ∧ (∀ r rest, s.eng.reports = r :: rest → (∀ c, r.key ≠ .completion c) →
        exec (.fetchReport f) s = .next ((s.asTaken.putEngine { s.asTaken.eng with reports := rest }).answered f 0x93 .ok
          (.report r rest.length)))
    ∧ (∀ (r : Report) (left : Nat), (⟨0x93, f.seq, .ok, .report r left, true, false⟩ : TxReply).body_.take 2
        = [0x00, match r.body with
          | .completion _ => 0x01
          | .progress _ => 0x02
          | .zone _ => 0x03
          | .output _ => 0x04])
    ∧ ∀ (r : Record) (n left : Nat),
        (⟨0x93, f.seq, .ok, .report ⟨.completion r, n⟩ left, true, false⟩ : TxReply).body_.take 27
          = [0x00, 0x01] ++ recordBytes r

/-! ## Tables -/

/-- A WRITE SEGMENTS in the bytes of R188 replaces the slots together, in the host area in both modes and in the reserve area in COMMISSIONING with RESERVE-LOCK clear; a write to the reserve area is otherwise refused and changes no slot (R30, R38, R43). -/
def Obligations.WriteSegments : Prop :=
  ∀ (s : State) (f : Frame) (first : Nat) (segs : List Segment), s.accepts f →
    1 ≤ segs.length → segs.length ≤ 8 → (∀ x ∈ segs, segmentOk x = true) →
    (first + segs.length ≤ 80 ∨ (80 ≤ first ∧ first + segs.length ≤ 96)) →
    let body := BitVec.ofNat 8 first :: BitVec.ofNat 8 segs.length :: (segs.map segmentBytes).flatten
    let allowed := first < 80 ∨ (s.cfc.locks.reserve = false ∧ s.cfc.mode = .commissioning)
    (allowed → ∃ slots, exec (.writeSegments f body) s
        = .next ((s.asTaken.putTables { s.tab with slots := slots }).answered f 0xA0 .ok .none)
      ∧ ∀ i : SlotNo, Bank.nth slots i
          = if h : first ≤ i.val ∧ i.val < first + segs.length then segs[i.val - first]'(by omega)
            else Bank.nth s.tab.slots i)
    ∧ (80 ≤ first → s.cfc.locks.reserve = true →
        exec (.writeSegments f body) s = .next (s.asTaken.answered f 0xA0 .locked .none))
    ∧ (80 ≤ first → s.cfc.locks.reserve = false → s.cfc.mode = .operating →
        exec (.writeSegments f body) s = .next (s.asTaken.answered f 0xA0 .notPermitted .none))

/-- READ SEGMENTS returns the slots in turn as the store holds them, in either mode and under any lock, and refuses a range that is not one of 1 to 8 slots inside the store (R31). -/
def Obligations.ReadSegments : Prop :=
  ∀ (s : State) (f : Frame) (first count : Nat), s.accepts f →
    (∀ h : first + count ≤ 96, 1 ≤ count → count ≤ 8 →
      exec (.readSegments f first count) s = .next (s.asTaken.answered f 0xA1 .ok (.segments first count
        (List.ofFn (fun i : Fin count => Bank.nth s.tab.slots ⟨first + i.val, by omega⟩)))))
    ∧ ((95 < first ∨ count = 0 ∨ 8 < count ∨ 96 < first + count) →
      exec (.readSegments f first count) s = .next (s.asTaken.answered f 0xA1 .badArgument .none))

/-- WRITE PATH: a good write by lock, mode and window to an entry not in use replaces the whole entry; a lock, the window and use refuse it in that order; READ PATH returns the entry (R25, R26, R39, R42, R44, R45). -/
def Obligations.PathTable : Prop :=
  ∀ (s : State) (f : Frame) (n : PathNo) (w : PathWrite) (p : Option PathEntry), s.accepts f → pathWriteOf w = some p →
    let inWindow := ∃ a b, s.cfc.window = some (a, b) ∧ a ≤ n ∧ n ≤ b
    let open_ := (s.cfc.mode = .commissioning ∧ s.cfc.locks.path = false) ∨ (s.cfc.mode = .operating ∧ inWindow)
    let inUse := (∃ c o, s.eng.order c = some o ∧ (o.copy.path = n ∨ ∃ x, o.next = some x ∧ x.path = n))
      ∨ (s.eng.crg.state ≠ .disabled ∧ (s.eng.crg.settings.heatPath = some n ∨ s.eng.crg.settings.coolPath = some n))
    (open_ → ¬ inUse → ∃ info, exec (.writePath f n.val w) s
        = .next ((s.asTaken.putTables { s.tab with paths := Bank.put s.tab.paths n p }).answered f 0xA2 .ok (.path info))
      ∧ info.entry = p ∧ info.effectiveLead = p.map effectiveLead)
    ∧ (s.cfc.mode = .commissioning → s.cfc.locks.path = true →
        exec (.writePath f n.val w) s = .next (s.asTaken.answered f 0xA2 .locked .none))
    ∧ (s.cfc.mode = .operating → ¬ inWindow →
        exec (.writePath f n.val w) s = .next (s.asTaken.answered f 0xA2 .notPermitted .none))
    ∧ (open_ → inUse → exec (.writePath f n.val w) s = .next (s.asTaken.answered f 0xA2 .inUse .none))
    ∧ ∃ info, exec (.readPath f n.val) s = .next (s.asTaken.answered f 0xA3 .ok (.path info))
        ∧ info.entry = Bank.nth s.tab.paths n ∧ info.effectiveLead = (Bank.nth s.tab.paths n).map effectiveLead
        ∧ (info.inUse = true ↔ inUse) ∧ (info.writable = true ↔ open_)

/-- WRITE ZONE: a write that is judged good replaces the groups it carries in COMMISSIONING, and judges a pending start afresh when the reserve group is among them: dropped NOT-STARTED when no reserve is written, and otherwise made, held or taken over as R141 gives against the group as now written, with a zone report when the outcome changes (R134, R141, R148). The regulator is told of a start on channel 5, a failing one included (R161). The model's choices: one zone report for a start that fails at once (log 9), the WRITE ZONE reply's input list (log 24), and an input's value in the form of the entry it was read under where its entry has changed (log 7). It is refused LOCKED for a limit group under LIMIT-LOCK and NOT-PERMITTED in OPERATING; READ ZONE returns entry, reading, state and trip record (R41, R135). -/
def Obligations.ZoneTable : Prop :=
  ∀ (s : State) (f : Frame) (z : Zone) (w : ZoneWrite) (x : ZoneChange), s.accepts f → zoneChangeOf z w = some x →
    let tab := s.tab.changeZone z x
    let taken := s.asTaken.putTables tab
    (s.cfc.mode = .commissioning → ¬ (x.limits.isSome = true ∧ s.cfc.locks.limit = true) →
      ∃ t info, exec (.writeZone f z.idx.val w) s = .next (t.answered f 0xA4 .ok (.zoneTable info))
        ∧ t.tab = tab
        ∧ (x.reserve = none → t = taken)
        ∧ ((s.eng.zone z).pending = false → t = taken)
        ∧ (x.reserve = some none → (s.eng.zone z).pending = true →
            t = taken.putEngine (((s.asTaken.eng.setPending z false).setOutcome z .notStarted).handZone z))
        ∧ (∀ r, x.reserve = some (some r) → (s.eng.zone z).pending = true →
          let e := taken.eng.setPending z false
          let becomes (e' : Engine) := t = taken.putEngine
            (if (e'.zone z).trip.outcome = (s.eng.zone z).trip.outcome then e' else e'.handZone z)
          let own := ∃ c o, s.eng.order c = some o ∧ o.owner = .reserve z
          let held := (e.setPending z true).setOutcome z .pending
          let told := if r.channel = 5 then e.putRegState e.crg.state.afterNotice else e
          t = taken.putEngine (taken.eng.rejudgePending tab (Engine.grantScan tab) z)
          ∧ (own → becomes (e.setOutcome z .started))
          ∧ (¬ own → s.eng.part ≠ .ready → becomes held)
          ∧ (¬ own → s.eng.part = .ready → s.eng.order r.channel = none →
            (∀ g, s.eng.fetchFirst tab (.reserve z) 0 r.slot = .error g → becomes (told.setOutcome z (.ended g.cause 0)))
            ∧ ∀ y, s.eng.fetchFirst tab (.reserve z) 0 r.slot = .ok y →
              let o : Order := {
                phase := .waiting, owner := .reserve z, tag := 0, cls := 0, firstSlot := some r.slot, copy := y
                previous := none, next := none, prefetchMade := false, failure := none, remaining := y.quantity.map (· * 10)
                carry := 0, delivered := 0, segTime := 0, runFlag := false, orderTime := 0, waitTimer := 0, waitLimit := 0
                demands := Vector.replicate 8 0, corrections := Vector.replicate 8 0, lead := none, meterHeld := false
                notes := ⟨false, false, 0⟩ }
              let e1 := told.setOutcome z .started
              becomes ((Engine.grantScan tab ((e1.putOrder r.channel (some o)).submitBack tab r.channel o)).prefetch tab
                r.channel))
          ∧ (∀ o, ¬ own → s.eng.part = .ready → s.eng.order r.channel = some o →
            (∀ y, o.owner = .reserve y → becomes held)
            ∧ (o.owner = .host → (o.phase = .setting ∨ o.phase = .running) →
              let n := (tab.entry o.copy.path).runDown * 10
              0 < n → becomes (((e.putOrder r.channel (some { o with
                phase := .ending ⟨.endWith ⟨.preempted, .absent, none⟩, n, n, o.demands, false⟩, carry := 0
                notes := { o.notes with overrun := o.notes.overrun + o.carry }, failure := none
                lead := none })).setPending z true).setOutcome z .pending))))
        ∧ info.zone = z ∧ info.entry = x.apply (Bank.nth s.tab.zones z.idx))
    ∧ (x.limits.isSome = true → s.cfc.locks.limit = true →
        exec (.writeZone f z.idx.val w) s = .next (s.asTaken.answered f 0xA4 .locked .none))
    ∧ (¬ (x.limits.isSome = true ∧ s.cfc.locks.limit = true) → s.cfc.mode = .operating →
        exec (.writeZone f z.idx.val w) s = .next (s.asTaken.answered f 0xA4 .notPermitted .none))
    ∧ ∃ i, exec (.readZone f z.idx.val) s = .next (s.asTaken.answered f 0xA5 .ok (.zone i))
        ∧ i.table.entry = Bank.nth s.tab.zones z.idx ∧ i.reading = Bank.nth s.sbe.readings z.idx
        ∧ i.state = (s.eng.zone z).state ∧ i.depleted = (s.eng.zone z).depleted ∧ i.full = (s.eng.zone z).full
        ∧ i.pending = (s.eng.zone z).pending ∧ i.trip = (s.eng.zone z).trip
        ∧ (∀ k r, (k, r) ∈ i.table.inputs ↔ Bank.nth s.sbe.map k = .zoneTemp z
          ∧ r = ⟨Bank.nth s.sbe.inputs k, (Bank.nth s.sbe.applied k).isFlow⟩)

/-- WRITE SENSOR MAP: a good write in COMMISSIONING replaces the map at once and touches no input yet, and the reply shows each input with the value it had (R4, R22), by the model's choice in the form, flow or temperature, of the entry it was read under (log 7); in OPERATING it is refused (R46). -/
def Obligations.SensorMapWrite : Prop :=
  ∀ (s : State) (f : Frame) (es : List RawMapEntry), s.accepts f →
    (∀ m, mapWriteOf s.sbe.map es = some m → s.cfc.mode = .commissioning → ∃ info,
      exec (.writeSensorMap f es) s
        = .next (({ s.asTaken with sbe := { s.sbe with map := m } }).answered f 0xA6 .ok (.sensorMap info))
      ∧ info = List.ofFn (fun i : InputNo => (Bank.nth m i, ⟨Bank.nth s.sbe.inputs i,
          (if Bank.nth s.sbe.applied i = .unused then Bank.nth m i else Bank.nth s.sbe.applied i).isFlow⟩)))
    ∧ (∀ m, mapWriteOf s.sbe.map es = some m → s.cfc.mode = .operating →
        exec (.writeSensorMap f es) s = .next (s.asTaken.answered f 0xA6 .notPermitted .none))
    ∧ (mapWriteOf s.sbe.map es = none →
        exec (.writeSensorMap f es) s = .next (s.asTaken.answered f 0xA6 .badArgument .none))

/-- CHECKSUM over slots is the CRC of the segment bodies READ SEGMENTS returns, with the count, the mode and the locks; any area answers a range inside it and refuses one outside (R47). -/
def Obligations.Checksum : Prop :=
  ∀ (s : State) (f : Frame) (first last : Nat), s.accepts f →
    (first ≤ last → last < 96 → exec (.checksum f .segments first last) s = .next (s.asTaken.answered f 0xA7 .ok
      (.checksum (crc16 ((((s.tab.slots.toList.drop first).take (last + 1 - first)).map segmentBytes).flatten))
        (last + 1 - first) s.cfc.mode s.cfc.locks)))
    ∧ (∀ a : Area, first ≤ last → last < areaSize a →
        ∃ crc, exec (.checksum f a first last) s = .next (s.asTaken.answered f 0xA7 .ok
          (.checksum crc (last + 1 - first) s.cfc.mode s.cfc.locks)))
    ∧ (∀ a : Area, (last < first ∨ areaSize a ≤ last) →
        exec (.checksum f a first last) s = .next (s.asTaken.answered f 0xA7 .badArgument .none))

/-! ## Outputs and comfort -/

/-- READ MOVERS returns as they stand: every present output with its role, feedback, test timer and hand-over part, every valve, the role map, the claim list, the holders of every role and valve with their shares and positions, the compressor record, and every meter with its rates, hold count and inputs (R22, R113, R130). The model's: the order of the role lists and of the holders in them (log 7), the inputs by the map as written, the travel time left in scans (log 24). -/
def Obligations.MoversReported : Prop :=
  ∀ (s : State) (f : Frame), s.accepts f →
    ∃ m, exec (.readMovers f) s = .next (s.asTaken.answered f 0xB0 .ok (.movers m))
      ∧ m.roleMap = s.eng.ost.roleMap ∧ m.claims = s.eng.mar.claims ∧ m.compressor = s.eng.mar.comp
      ∧ m.grantOrder = s.eng.mar.grants.map (·.channel)
      ∧ m.compressorShares = sharesOn s.eng.mar.grants .compressor ∧ m.heaterShares = sharesOn s.eng.mar.grants .heater
      ∧ m.roleHolders = [.pumpBatt, .pumpDrive, .pumpCabin, .pumpAux, .fan, .heater, .compressor, .chiller].map (fun r =>
          (r, (s.eng.mar.grants.filter (fun g => g.roles.any (fun y => y.1 = r))).map (fun g =>
            ⟨g.channel, g.cls, ((g.roles.find? (fun y => y.1 = r)).map (·.2)).getD 0⟩)))
      ∧ m.valveHolders = (List.finRange 6).map (fun v =>
          (v, (s.eng.mar.grants.filter (fun g => g.valves.any (fun y => y.1 = v))).map (fun g =>
            ⟨g.channel, g.cls, ((g.valves.find? (fun y => y.1 = v)).map (·.2)).getD 0⟩)))
      ∧ m.outputs.map (·.number) = (if s.tab.straps.spare then [0, 1, 2, 3, 4, 5, 6, 7, 8] else [0, 1, 2, 3, 4, 5, 6, 7])
      ∧ (∀ x ∈ m.outputs, let r := s.eng.output x.number
          x.state = r.state ∧ x.fault = r.fault ∧ x.target = r.target ∧ x.level = r.level ∧ x.current = r.current
          ∧ x.role = s.eng.ost.served x.number ∧ x.kind = outputKind x.number
          ∧ x.speed = (match outputKind x.number with
            | .pump | .compressor | .fan => some r.speed
            | .chiller | .heater => none)
          ∧ x.testTimer = (if r.state = .testing then r.testTimer else none)
          ∧ (s.eng.ost.handOver = none → x.handOver = none)
          ∧ ∀ h, s.eng.ost.handOver = some h →
            (h.incoming = x.number → x.handOver = some (.incoming, h.timer))
            ∧ (∀ l, h.incoming ≠ x.number → h.outgoing = some (x.number, l) → x.handOver = some (.outgoing, h.timer))
            ∧ (h.incoming ≠ x.number → (∀ l, h.outgoing ≠ some (x.number, l)) → x.handOver = none))
      ∧ m.valves = List.ofFn (fun v : ValveNo => ⟨(s.eng.valve v).state, (s.eng.valve v).fault,
          (s.eng.valve v).test.isSome, (s.eng.valve v).commanded, (s.eng.valve v).feedback,
          if (s.eng.valve v).state = .travelling then some (s.eng.valve v).travelTimer else none⟩)
      ∧ m.meters = [.mBatt, .mDrive, .mCabin, .mAux].map (fun k =>
          let r := s.eng.meter k
          let input (y : MapEntry) : InputShown :=
            match (List.finRange 32).find? (fun i => Bank.nth s.sbe.map i = y) with
            | none => ⟨none, y.isFlow⟩
            | some i => ⟨Bank.nth s.sbe.inputs i,
                (if Bank.nth s.sbe.applied i = .unused then y else Bank.nth s.sbe.applied i).isFlow⟩
          ⟨r.state, if r.state = .invalid then none else r.rate,
            if r.state = .holding ∨ r.state = .handOver then r.held else none,
            if r.state = .holding then some r.holdCount else none,
            input (.meterFlow k), input (.meterSupply k), input (.meterReturn k)⟩)

/-- EXCHANGE ROLE: at once when the role has no holder, by a hand-over that holds the loop's meter when it has one and FORCE is set, and the refusals of R124 in their order (R20, R124, R125). -/
def Obligations.RoleExchanged : Prop :=
  ∀ (s : State) (f : Frame) (r : Role) (force : Bool), s.accepts f →
    let refused (c : ReplyCode) := exec (.exchangeRole f (some r) force) s = .next (s.asTaken.answered f 0xB1 c .none)
    let old := s.eng.mapped r
    let unheld := ∀ g ∈ s.eng.mar.grants, g.names r = false
    (exec (.exchangeRole f none force) s = .next (s.asTaken.answered f 0xB1 .badArgument .none))
    ∧ (r.isPump = false → refused .badArgument)
    ∧ (r.isPump = true → s.tab.straps.spare = false → refused .notPermitted)
    ∧ (r.isPump = true → s.tab.straps.spare = true → s.eng.ost.handOver ≠ none → refused .inUse)
    ∧ (r.isPump = true → s.tab.straps.spare = true → s.eng.ost.handOver = none → (s.eng.output old).state = .testing →
        refused .inUse)
    ∧ (r.isPump = true → s.tab.straps.spare = true → s.eng.ost.handOver = none → (s.eng.output old).state ≠ .testing →
        ∀ x, s.eng.ost.spare s.tab.straps = some x →
        let map := Bank.put s.eng.ost.roleMap r.idx x
        let moved (t : State) := t.eng.ost.roleMap = map
          ∧ t.eng.output x = { s.eng.output x with target := (s.eng.output old).target, level := 0 }
          ∧ t.eng.output old = { s.eng.output old with target := 0 }
          ∧ ∀ o, o ≠ x → o ≠ old → t.eng.output o = s.eng.output o
        ((s.eng.output x).state ≠ .inService → refused .outputFaulted)
        ∧ ((s.eng.output x).state = .inService → ¬ unheld → force = false → refused .inUse)
        ∧ ((s.eng.output x).state = .inService → unheld →
            ∃ t, exec (.exchangeRole f (some r) force) s = .next (t.answered f 0xB1 .ok (.roleMap map))
              ∧ moved t ∧ t.eng.ost.handOver = none ∧ t.eng.meters = s.eng.meters)
        ∧ ((s.eng.output x).state = .inService → ¬ unheld → force = true →
            ∃ t, exec (.exchangeRole f (some r) force) s = .next (t.answered f 0xB1 .ok (.roleMap map))
              ∧ moved t
              ∧ t.eng.ost.handOver = some ⟨r, x, some (old, (s.eng.output old).level), s.tab.tuning.handOverTime * 10,
                  s.tab.tuning.handOverTime * 10⟩
              ∧ ∀ m, r.loopMeter = some m →
                ((s.eng.meter m).state = .valid → t.eng.meter m
                  = { s.eng.meter m with state := .handOver, held := (s.eng.meter m).rate, before := some .valid })
                ∧ ((s.eng.meter m).state = .holding → t.eng.meter m
                  = { s.eng.meter m with state := .handOver, before := some .holding })
                ∧ ((s.eng.meter m).state = .invalid → t.eng.meter m = s.eng.meter m)))

/-- TEST OUTPUT of a FAULTED output makes it TESTING at 30.0 percent for 20 scans with its fault kind kept, the compressor in the circuit of its mode or, UNSET, the cooling one; of a FAULTED valve that nothing holds, sends it to 0 with a fresh travel timer; the other cases of R127 are refused (R127, R128). That the test begins with no missed feedback counted is the model's (log 16). -/
def Obligations.TestBegun : Prop :=
  ∀ (s : State) (f : Frame), s.accepts f →
    let answers (i : TestItem) (c : ReplyCode) := exec (.testOutput f i) s = .next (s.asTaken.answered f 0xB2 c .none)
    (answers .other .badArgument)
    ∧ (∀ n, n = 0 ∨ 9 < n ∨ (n = 9 ∧ s.tab.straps.spare = false) → answers (.output n) .badArgument)
    ∧ (∀ n, n = 0 ∨ 6 < n → answers (.valve n) .badArgument)
    ∧ (∀ o : OutputNo, (o = 8 → s.tab.straps.spare = true) →
        (s.eng.part ≠ .ready → answers (.output (o.val + 1)) .notPermitted)
        ∧ (s.eng.part = .ready → (s.eng.output o).state = .testing → answers (.output (o.val + 1)) .inUse)
        ∧ (s.eng.part = .ready → (s.eng.output o).state = .inService → answers (.output (o.val + 1)) .notPermitted)
        ∧ (s.eng.part = .ready → (s.eng.output o).state = .faulted → o = 4 → s.eng.mar.comp.condition ≠ .steady →
            answers (.output (o.val + 1)) .notPermitted)
        ∧ (s.eng.part = .ready → (s.eng.output o).state = .faulted → (o = 4 → s.eng.mar.comp.condition = .steady) →
            let e := s.eng.putOutput o
              { s.eng.output o with state := .testing, target := 0, level := 300, testTimer := some 20 }
            exec (.testOutput f (.output (o.val + 1))) s = .next ((s.asTaken.putEngine
              (if o = 4 then { e with ost := { e.ost with circuit := s.eng.mar.comp.mode.getD .cool } } else e)).answered
                f 0xB2 .ok .none)))
    ∧ (∀ v : ValveNo,
        let x := s.eng.valve v
        (s.eng.part ≠ .ready → answers (.valve (v.val + 1)) .notPermitted)
        ∧ (s.eng.part = .ready → x.test ≠ none → answers (.valve (v.val + 1)) .inUse)
        ∧ (s.eng.part = .ready → x.test = none → x.state ≠ .faulted → answers (.valve (v.val + 1)) .notPermitted)
        ∧ (s.eng.part = .ready → x.test = none → x.state = .faulted → (∃ g ∈ s.eng.mar.grants, g.namesValve v = true) →
            answers (.valve (v.val + 1)) .inUse)
        ∧ (s.eng.part = .ready → x.test = none → x.state = .faulted → (∀ g ∈ s.eng.mar.grants, g.namesValve v = false) →
            ∀ back, (∀ p, x.commanded = some p → back = p) →
              (∀ p, x.commanded = none → x.feedback = some p → back = if x.missCount = 0 then p else 0) →
              (x.commanded = none → x.feedback = none → back = 0) →
              exec (.testOutput f (.valve (v.val + 1))) s = .next ((s.asTaken.putEngine (s.eng.putValve v
                { x with commanded := some 0, travelTimer := s.tab.tuning.valveTimeout * 10, missCount := 0
                         test := some ⟨.toZero, back⟩ })).answered f 0xB2 .ok .none)))

/-- SET CABIN TARGET, in hundredths of a degree: whole tenths from 14.0 to 30.0 are set and answered with the target, the regulator's state and the CABIN mean, whatever the mode, lockout, regulator, part state and panel lock; any other value is refused (R152). -/
def Obligations.SetCabinTarget : Prop :=
  ∀ (s : State) (f : Frame) (h : Int), s.accepts f →
    ((1400 ≤ h ∧ h ≤ 3000 ∧ h % 10 = 0) →
      exec (.setCabinTarget f h) s
        = .next ((s.asTaken.putEngine { s.asTaken.eng with crg := { s.eng.crg with target := h / 10 } }).answered f 0xC0 .ok
          (.cabinTarget (h / 10) s.eng.crg.state (Bank.nth s.sbe.readings Zone.cabin.idx).mean)))
    ∧ (¬ (1400 ≤ h ∧ h ≤ 3000 ∧ h % 10 = 0) →
      exec (.setCabinTarget f h) s = .next (s.asTaken.answered f 0xC0 .badArgument .none))

/-- COMFORT ON with settings that serve makes the regulator ACTIVE, RESTING, and its refusals keep their order; COMFORT OFF makes it DISABLED and ends its order HALTED by the channel's state; PANEL LOCK sets or clears the lock (R155, R156, R165). The sequence after an ended order is the model's (log 10). At a full scan's end at which no zone changes state and no other channel runs an order the regulator judges the cab: it starts, renews, ends or redirects its order by the band, the pre-check and the state of channel 5, returns from HELD, and does nothing without a CABIN mean (R157 to R162). -/
def Obligations.ComfortSwitched : Prop :=
  (∀ (s : State) (f : Frame), s.accepts f →
    (∀ (g : Option RawComfort) (x : ComfortSettings),
      (g = none ∧ x = s.eng.crg.settings ∨ ∃ r, g = some r ∧ comfortOf r = some x) →
      (∃ h c p q, x.heatPath = some h ∧ x.coolPath = some c ∧ Bank.nth s.tab.paths h = some p ∧ p.sink = .cabin
        ∧ Bank.nth s.tab.paths c = some q ∧ q.source = .cabin) →
      let busy := s.eng.crg.state = .held ∨ (∃ d, s.eng.crg.state = .active d) ∨ s.eng.order 5 ≠ none
        ∨ (s.eng.channel 5).recordQueued = true
      (s.eng.part ≠ .ready →
        exec (.comfortOn f g) s = .next (s.asTaken.answered f 0xC1 .unavailable (.unavailable .waking)))
      ∧ (s.eng.part = .ready → s.cfc.lockout = true →
        exec (.comfortOn f g) s = .next (s.asTaken.answered f 0xC1 .unavailable (.unavailable .lockout)))
      ∧ (s.eng.part = .ready → s.cfc.lockout = false → busy →
        exec (.comfortOn f g) s = .next (s.asTaken.answered f 0xC1 .inUse .none))
      ∧ (s.eng.part = .ready → s.cfc.lockout = false → ¬ busy →
        exec (.comfortOn f g) s
          = .next ((s.asTaken.putEngine { s.eng with crg := ⟨s.eng.crg.target, x, .active .resting⟩ }).answered f 0xC1 .ok
            (.comfort ⟨.active .resting, x, s.eng.crg.target⟩))))
    ∧ (let e := s.asTaken.eng.putRegState .disabled
      let off (e' : Engine) := exec (.comfortOff f) s = .next ((s.asTaken.putEngine e').answered f 0xC2 .ok
        (.comfort ⟨e'.crg.state, e'.crg.settings, e'.crg.target⟩))
      ((∀ o, s.eng.order 5 = some o → o.owner ≠ .regulator) → off e)
      ∧ ∀ o, s.eng.order 5 = some o → o.owner = .regulator →
        let n := (s.tab.entry o.copy.path).runDown * 10
        (o.phase = .waiting →
          off ((Engine.grantScan s.tab ((e.withdraw 5).putOrder 5 none)).servePending s.tab (Engine.grantScan s.tab) 5))
        ∧ ((o.phase = .setting ∨ o.phase = .running) → 0 < n →
          off (e.putOrder 5 (some { o with
            phase := .ending ⟨.endWith ⟨.halted, .absent, none⟩, n, n, o.demands, false⟩, carry := 0
            notes := { o.notes with overrun := o.notes.overrun + o.carry }, failure := none, lead := none })))
        ∧ (∀ r, o.phase = .ending r → r.purpose = .transition →
          off (e.putOrder 5 (some { o with
            phase := .ending { r with purpose := .endWith ⟨.halted, .absent, none⟩ }, failure := none })))
        ∧ (∀ r g, o.phase = .ending r → r.purpose = .endWith g → off e))
    ∧ (∀ b, exec (.panelLock f (some b)) s = .next (({ s.asTaken with panel := { s.panel with lock := b } }).answered f 0xC3
        .ok (.panelLock b ⟨s.eng.crg.state, s.eng.crg.settings, s.eng.crg.target⟩)))
    ∧ exec (.panelLock f none) s = .next (s.asTaken.answered f 0xC3 .badArgument .none))
  ∧ ∀ (s : State) (fb : Feedback) (ord : ScanOrder), s.atFullScanEnd fb ord → (∀ z, s.zoneStands z) → s.eng.settledOn 5 →
    let x := s.eng.crg
    let reading (z : Zone) := Bank.nth s.sbe.formReadings z.idx
    ∃ t, exec (.scanEnd fb ord) s = .next t
      ∧ (x.state = .held → s.eng.order 5 = none →
          t.eng.order 5 = none ∧ t.eng.crg = { x with state := if s.cfc.lockout then .held else .active .resting })
      ∧ ((x.state = .disabled ∨ x.state = .suspended ∨ (reading .cabin).mean = none ∧ ∃ d, x.state = .active d) →
          s.eng.order 5 = none → t.eng.order 5 = none ∧ t.eng.crg = x)
      ∧ ∀ d mean, x.state = .active d → (reading .cabin).mean = some mean →
        let cold := mean < x.target - x.settings.deadband
        let hot := x.target + x.settings.deadband < mean
        let entry (n : PathNo) := s.tab.entry n
        let bars (n : PathNo) :=
          depletedVerdict (s.tab.zone (entry n).source).limits (reading (entry n).source) = true
          ∨ (s.eng.zone (entry n).source).state = .lowTrip
          ∨ fullVerdict (s.tab.zone (entry n).sink).limits (reading (entry n).sink) = true
          ∨ (s.eng.zone (entry n).sink).state = .highTrip
        let wants (w : Direction) (n : PathNo) := (w = .heating ∧ cold ∧ x.settings.heatPath = some n
          ∨ w = .cooling ∧ hot ∧ x.settings.coolPath = some n) ∧ ¬ bars n
        let rests := ∀ w n, ¬ wants w n
        let rate (n : PathNo) := comfortRate x.settings.gain x.target mean (entry n).capacity
        let copy (n : PathNo) : Copy := ⟨n, none, rate n, 0, 0, ⟨false, false, false, false, false⟩, none⟩
        let passes (n : PathNo) := validate s.tab 3 none (copy n) = none ∧ s.eng.setup s.tab .regulator (copy n) = none
        let is (r : RegState) := t.eng.crg = { x with state := r }
        (d = .resting → s.eng.order 5 = none →
          (rests → is (.active .resting) ∧ t.eng.order 5 = none)
          ∧ ∀ w n, wants w n →
            (passes n → is (.active w) ∧ ∃ o, t.eng.order 5 = some o ∧ o.owner = .regulator ∧ o.cls = 3 ∧ o.tag = 0
              ∧ o.firstSlot = none ∧ o.copy = copy n ∧ o.waitLimit = x.settings.waitLimit
              ∧ (o.phase = .waiting ∨ o.phase = .setting))
            ∧ ∀ g, (validate s.tab 3 none (copy n) = some g ∧ g.cause = .protection
                ∨ validate s.tab 3 none (copy n) = none ∧ s.eng.setup s.tab .regulator (copy n) = some g) →
              is .suspended ∧ t.eng.order 5 = none ∧ (t.eng.channel 5).recordQueued = true
              ∧ ∃ k, ⟨.completion ⟨5, 0, 3, g, none, none, 0, 0, ⟨false, false, 0⟩⟩, k⟩ ∈ t.eng.reports)
        ∧ ∀ o, d ≠ .resting → s.eng.order 5 = some o → o.owner = .regulator → o.cls = 3 →
          (o.phase = .waiting →
            (∀ n, wants d n → is (.active d) ∧ t.eng.order 5 = some { o with
              copy := { o.copy with rate := rate n }, orderTime := o.orderTime + 1, waitTimer := o.waitTimer + 1 })
            ∧ (rests → is (.active .resting) ∧ t.eng.order 5 = none)
            ∧ ∀ w n, w ≠ d → wants w n → passes n → is (.active w) ∧ ∃ o', t.eng.order 5 = some o' ∧ o'.copy = copy n
              ∧ (o'.phase = .waiting ∧ o'.waitTimer = o.waitTimer + 1 ∨ o'.phase = .setting))
          ∧ ((s.keepsSetting o ∨ s.keepsRunning o) → (entry o.copy.path).runDown ≠ 0 →
            (∀ n, wants d n → is (.active d) ∧ ∃ o', t.eng.order 5 = some o' ∧ o'.phase = o.phase
              ∧ o'.copy = { o.copy with rate := rate n })
            ∧ (rests → is (.active .resting) ∧ ∃ o', t.eng.order 5 = some o' ∧ o'.endsWith ⟨.complete, .absent, none⟩)
            ∧ ∀ w n, w ≠ d → wants w n → passes n → is (.active w) ∧ ∃ o' r, t.eng.order 5 = some o'
              ∧ o'.phase = .ending r ∧ r.purpose = .transition ∧ o'.next = some (copy n))

/-! ## Configuration control -/

/-- SET TUNING replaces the whole set within its ranges, and the AUTO-RELEASE flag in COMMISSIONING only; SET MODE takes OPERATING always and COMMISSIONING while every channel is IDLE and the regulator DISABLED (R194, R195). -/
def Obligations.TuningAndMode : Prop :=
  ∀ (s : State) (f : Frame), s.accepts f →
    (∀ (t : Tuning) (auto : Bool),
      let inRange := (1 ≤ t.prefetchMargin ∧ t.prefetchMargin ≤ 2000) ∧ t.meterHold ≤ 30
        ∧ (5 ≤ t.valveTimeout ∧ t.valveTimeout ≤ 60) ∧ (30 ≤ t.equalizeTime ∧ t.equalizeTime ≤ 180)
        ∧ (t.parkDelay = 0 ∨ 10 ≤ t.parkDelay ∧ t.parkDelay ≤ 3600) ∧ t.leadThreshold ≤ 1500
        ∧ (2 ≤ t.leadTime ∧ t.leadTime ≤ 30) ∧ (30 ≤ t.coolant ∧ t.coolant ≤ 42)
        ∧ (1 ≤ t.handOverTime ∧ t.handOverTime ≤ 10)
      let flagOk := s.cfc.mode = .commissioning ∨ auto = s.cfc.autoRelease
      (inRange → flagOk →
        exec (.setTuning f t auto) s = .next (((s.asTaken.putTables { s.tab with tuning := t }).putControl
          { s.asTaken.cfc with autoRelease := auto }).answered f 0xD0 .ok (.tuning t auto)))
      ∧ (inRange → ¬ flagOk → exec (.setTuning f t auto) s = .next (s.asTaken.answered f 0xD0 .notPermitted .none))
      ∧ (¬ inRange → exec (.setTuning f t auto) s = .next (s.asTaken.answered f 0xD0 .badArgument .none)))
    ∧ (exec (.setMode f (some .operating)) s
        = .next ((s.asTaken.putControl { s.asTaken.cfc with mode := .operating }).answered f 0xD1 .ok .none))
    ∧ ((∀ c, s.eng.order c = none) → s.eng.crg.state = .disabled →
        exec (.setMode f (some .commissioning)) s
          = .next ((s.asTaken.putControl { s.asTaken.cfc with mode := .commissioning }).answered f 0xD1 .ok .none))
    ∧ (((∃ c, s.eng.order c ≠ none) ∨ s.eng.crg.state ≠ .disabled) →
        exec (.setMode f (some .commissioning)) s = .next (s.asTaken.answered f 0xD1 .inUse .none))
    ∧ exec (.setMode f none) s = .next (s.asTaken.answered f 0xD1 .badArgument .none)

/-- SET LOCK sets the locks it names and clears none, RELEASE PATH LOCK clears PATH-LOCK while every channel is IDLE, SET PATH WINDOW sets a window in range or empties it, each in COMMISSIONING only and each answered with the three locks (R40, R42, R44). A SET LOCK that names none is refused by the model's choice (log 26). -/
def Obligations.LocksAndWindow : Prop :=
  ∀ (s : State) (f : Frame), s.accepts f →
    let idle := ∀ c, s.eng.order c = none
    (∀ l : Locks, (l.limit = true ∨ l.path = true ∨ l.reserve = true) →
      let now : Locks := ⟨s.cfc.locks.limit || l.limit, s.cfc.locks.path || l.path, s.cfc.locks.reserve || l.reserve⟩
      (s.cfc.mode = .commissioning →
        exec (.setLock f l) s
          = .next ((s.asTaken.putControl { s.asTaken.cfc with locks := now }).answered f 0xD2 .ok (.locks now)))
      ∧ (s.cfc.mode = .operating → exec (.setLock f l) s = .next (s.asTaken.answered f 0xD2 .notPermitted .none)))
    ∧ exec (.setLock f ⟨false, false, false⟩) s = .next (s.asTaken.answered f 0xD2 .badArgument .none)
    ∧ (s.cfc.mode = .commissioning → idle →
        exec (.releasePathLock f) s = .next ((s.asTaken.putControl { s.asTaken.cfc with
          locks := ⟨s.cfc.locks.limit, false, s.cfc.locks.reserve⟩ }).answered f 0xD3 .ok
            (.locks ⟨s.cfc.locks.limit, false, s.cfc.locks.reserve⟩)))
    ∧ (s.cfc.mode = .commissioning → ¬ idle →
        exec (.releasePathLock f) s = .next (s.asTaken.answered f 0xD3 .inUse .none))
    ∧ (s.cfc.mode = .operating → exec (.releasePathLock f) s = .next (s.asTaken.answered f 0xD3 .notPermitted .none))
    ∧ (∀ a b : PathNo, a ≤ b → s.cfc.mode = .commissioning →
        exec (.setPathWindow f (some (a.val, b.val))) s = .next ((s.asTaken.putControl { s.asTaken.cfc with
          window := some (a, b) }).answered f 0xD4 .ok (.window (some (a, b)) s.cfc.locks)))
    ∧ (s.cfc.mode = .commissioning →
        exec (.setPathWindow f none) s
          = .next ((s.asTaken.putControl { s.asTaken.cfc with window := none }).answered f 0xD4 .ok (.window none s.cfc.locks)))
    ∧ (∀ w, (∀ a b, w = some (a, b) → a ≤ b ∧ b ≤ 23) → s.cfc.mode = .operating →
        exec (.setPathWindow f w) s = .next (s.asTaken.answered f 0xD4 .notPermitted .none))
    ∧ (∀ a b : Nat, (23 < a ∨ 23 < b ∨ b < a) →
        exec (.setPathWindow f (some (a, b))) s = .next (s.asTaken.answered f 0xD4 .badArgument .none))

/-- The course of a save: the request takes a snapshot of every item of R191, the first piece marks the stored image invalid, the end of the write makes it DONE with the snapshot stored, a failure leaves FAILED, BAD and no image (R8, R193). -/
def Obligations.SaveCourse : Prop :=
  (∀ (s : State) (f : Frame), s.accepts f →
    (s.cfc.save ≠ .writing → ∃ i : Image,
      exec (.saveConfiguration f) s = .next ((s.asTaken.putControl { s.asTaken.cfc with
        save := .writing, snapshot := some i }).answered f 0xD5 .ok .none)
      ∧ i.paths = s.tab.paths ∧ i.zones = s.tab.zones ∧ i.map = s.sbe.map ∧ i.locks = s.cfc.locks
      ∧ i.window = s.cfc.window ∧ i.roleMap = s.eng.ost.roleMap ∧ i.comfort = s.eng.crg.settings
      ∧ i.target = s.eng.crg.target ∧ i.tuning = s.tab.tuning ∧ i.autoRelease = s.cfc.autoRelease
      ∧ ∀ k : Fin 16, Bank.nth i.slots k = Bank.nth s.tab.slots ⟨80 + k.val, by omega⟩)
    ∧ (s.cfc.save = .writing → exec (.saveConfiguration f) s = .next (s.asTaken.answered f 0xD5 .inUse .none)))
  ∧ ∀ s : State, s.run = .running → s.cfc.save = .writing →
    (s.sbe.scan = none → exec .savePiece s = .next { s with stored := none })
    ∧ (∀ i, s.sbe.scan = none → s.cfc.snapshot = some i →
        exec .saveComplete s = .next { s with
          cfc := { s.cfc with save := .done, snapshot := none, imageStatus := .valid, imageTuning := i.tuning }
          stored := some i })
    ∧ exec .saveFailed s = .next { s with
        cfc := { s.cfc with save := .failed, snapshot := none, imageStatus := .bad
                            imageTuning := ⟨50, 5, 30, 60, 600, 80, 10, 36, 3, false⟩ }
        stored := none }

/-- RELEASE LOCKOUT clears lockout; PARK and the park timer take a READY part whose conditions hold to PARKED, and PARK is otherwise refused; the end of output enable makes a WAKING part READY with every count at 0 (R192, R196, R197, R131). That the entry to PARKED leaves a valve's state and travel timer as they stand is the model's (log 15). -/
def Obligations.LockoutParkEnable : Prop :=
  (∀ (s : State) (f : Frame), s.accepts f →
    exec (.releaseLockout f) s
      = .next ((s.asTaken.putControl { s.asTaken.cfc with lockout := false }).answered f 0xD6 .ok .none)
    ∧ (s.eng.part = .ready → s.quiet →
        ∃ t, exec (.park f) s = .next (t.answered f 0xD7 .ok .none) ∧ s.parksTo t)
    ∧ ((s.eng.part ≠ .ready ∨ ¬ s.quiet) → exec (.park f) s = .next (s.asTaken.answered f 0xD7 .notPermitted .none)))
  ∧ (∀ s : State, s.run = .running → s.eng.part = .ready → s.tab.tuning.parkDelay ≠ 0 →
      s.tab.tuning.parkDelay * 10 ≤ s.cfc.parkTimer → s.quiet →
      ∃ t, exec .parkTimerExpiry s = .next t ∧ s.parksTo t ∧ t.link = s.link)
  ∧ ∀ s : State, s.run = .running → s.eng.part = .waking → s.eng.wake = .outputEnable →
      ∃ t, exec .outputEnableEnd s = .next t ∧ t.eng.part = .ready ∧ t.cfc = { s.cfc with parkTimer := 0 }
        ∧ (∀ o, t.eng.output o = { s.eng.output o with openCount := 0, stallCount := 0 })
        ∧ ((∀ z, (s.eng.zone z).pending = false) →
            (∀ v, t.eng.valve v = { s.eng.valve v with missCount := 0, driftCount := 0 }) ∧ t.eng.zones = s.eng.zones
            ∧ t.eng.channels = s.eng.channels)

/-! ## Scans -/

/-- How scans start, and what a read does: the map change is applied and restarts the changed inputs, the inputs of the scan's kind are read in number order, a value makes an input VALID, and the third miss in a row makes it LOST (R4 to R6, R9, R10, R197). The start of a parked scan ends the 10 seconds since the last one, and what of them has not passed for a running equalize passes then (R105; the model's choice, log 6); that it restarts changed meter inputs too is the model's (log 33). -/
def Obligations.ScansAndReads : Prop :=
  (∀ s : State, s.run = .running → s.sbe.scan = none →
    let restarts (b : SensorBus) := b.map = s.sbe.map ∧ b.applied = s.sbe.map ∧ b.readings = s.sbe.readings
      ∧ ∀ i, Bank.nth b.inputs i = if Bank.nth s.sbe.map i = Bank.nth s.sbe.applied i then Bank.nth s.sbe.inputs i
          else if Bank.nth s.sbe.map i = .unused then none else some ⟨.lost, none, 3⟩
    let mapped := (List.finRange 32).filter (fun i => decide (Bank.nth s.sbe.map i ≠ .unused))
    ((s.eng.part = .ready ∨ s.eng.part = .waking ∧ s.eng.wake = .outputEnable) →
      ∃ b, exec .scanStart s = .next { s with sbe := b } ∧ restarts b ∧ b.scan = some ⟨.full, mapped⟩)
    ∧ (s.eng.part = .parked →
      let gone := 100 - s.sbe.parkedTime
      ∃ b l e, exec .parkedScanStart s = .next { s with sbe := b, eng := e } ∧ restarts b ∧ b.scan = some ⟨.parked, l⟩
        ∧ b.parkedTime = 0 ∧ l.Pairwise (· < ·) ∧ (∀ i, i ∈ l ↔ ∃ z, Bank.nth s.sbe.map i = .zoneTemp z)
        ∧ (s.eng.mar.comp.condition = .steady → e = s.eng)
        ∧ (∀ m n, s.eng.mar.comp.condition = .equalizing m n → gone < n → e = { s.eng with mar := { s.eng.mar with
            comp := { s.eng.mar.comp with condition := .equalizing m (n - gone) } } })
        ∧ ∀ m n, s.eng.mar.comp.condition = .equalizing m n → n ≤ gone → e = Engine.grantScan s.tab { s.eng with
            mar := { s.eng.mar with comp := ⟨some m, .steady⟩ }, ost := { s.eng.ost with circuit := m } })
    ∧ (s.eng.part = .waking → s.eng.wake = .scanDue →
      ∃ b, exec .wakingScanStart s = .next { s with sbe := b, eng := { s.eng with wake := .wakingScan } } ∧ restarts b
        ∧ b.scan = some ⟨.waking, mapped⟩))
  ∧ ∀ (s : State) (k : ScanKind) (i : InputNo) (rest : List InputNo) (r : InputRec), s.run = .running →
    s.sbe.scan = some ⟨k, i :: rest⟩ → Bank.nth s.sbe.inputs i = some r →
    let becomes (c : Instr) (x : InputRec) := exec c s
      = .next { s with sbe := { s.sbe with inputs := Bank.put s.sbe.inputs i (some x), scan := some ⟨k, rest⟩ } }
    let misses (c : Instr) := (r.status = .valid → r.misses < 2 → becomes c ⟨.valid, r.value, r.misses + 1⟩)
      ∧ ((r.status = .lost ∨ 2 ≤ r.misses) → becomes c ⟨.lost, none, 3⟩)
    (∀ v, (Bank.nth s.sbe.applied i).accepts v = true → becomes (.sensorRead i (.number v)) ⟨.valid, some v, 0⟩)
    ∧ (∀ v, (Bank.nth s.sbe.applied i).accepts v = false → misses (.sensorRead i (.number v)))
    ∧ misses (.sensorRead i .noAnswer) ∧ misses (.sensorRead i .corrupted)
    ∧ (r.status = .valid → r.misses = 2 → becomes (.inputLost i) ⟨.lost, none, 3⟩)

/-- The end of a scan: it is over, every zone reading is formed anew from the zone's valid values, and the tables, the map, the inputs, the port and the panel stay (R5, R12). -/
def Obligations.ScanEndReadings : Prop :=
  ∀ (s : State) (f : Feedback) (ord : ScanOrder) (k : ScanKind), s.run = .running → s.sbe.scan = some ⟨k, []⟩ →
    ∃ t, exec (.scanEnd f ord) s = .next t ∧ t.sbe.scan = none
      ∧ (∀ z : Zone,
          let vs := (List.finRange 32).filterMap (fun i : InputNo =>
            if Bank.nth s.sbe.applied i = .zoneTemp z then
              (match Bank.nth s.sbe.inputs i with
                | none => none
                | some r => if r.status = .valid then r.value else none)
            else none)
          Bank.nth t.sbe.readings z.idx
            = ⟨vs.length, vs.max?, vs.min?, if vs = [] then none else some (roundHigher vs.sum vs.length)⟩)
      ∧ t.sbe.map = s.sbe.map ∧ t.sbe.applied = s.sbe.applied ∧ t.sbe.inputs = s.sbe.inputs
      ∧ t.tab = s.tab ∧ t.link = s.link ∧ t.panel = s.panel ∧ t.stored = s.stored ∧ t.run = s.run
      ∧ t.cfc = { s.cfc with parkTimer := t.cfc.parkTimer } ∧ t.eng.crg.target = s.eng.crg.target
      ∧ t.eng.crg.settings = s.eng.crg.settings

/-- At every scan end each zone takes the state and the soft-limit verdicts that its new reading, its limits and its old state give by the tables of R137 and R138, whatever else happens at that scan end. An entry to HIGH-TRIP, LOW-TRIP or BLIND writes the trip record and wakes a PARKED part, every change of state has its zone report (R144, R147 to R149). A reserve start that falls due outside READY is held pending. At a full scan's end that judges the zones before the channels, where no other zone changes state and the regulator is DISABLED, the one order there is ends if it offends, a reserve start that falls due on an IDLE channel is made or fails, and a pending one is dropped as its zone returns to NORMAL (R139, R141, R144). -/
def Obligations.ZonesJudged : Prop :=
  ∀ (s t : State) (f : Feedback) (ord : ScanOrder) (k : ScanKind) (z : Zone), s.run = .running →
    s.sbe.scan = some ⟨k, []⟩ → exec (.scanEnd f ord) s = .next t →
    let l := (s.tab.zone z).limits
    let r := Bank.nth t.sbe.readings z.idx
    let old := (s.eng.zone z).state
    let new := (t.eng.zone z).state
    let high := ∃ v x, r.hottest = some v ∧ l.hardHigh = some x ∧ x ≤ v
    let low := ∃ v x, r.coldest = some v ∧ l.hardLow = some x ∧ v ≤ x
    let cooled := ∃ v x, r.hottest = some v ∧ l.hardHigh = some x ∧ v < x - l.hysteresis
    let warmed := ∃ v x, r.coldest = some v ∧ l.hardLow = some x ∧ x + l.hysteresis < v
    (r.count = 0 → new = .blind)
    ∧ (r.count ≠ 0 →
        (old = .normal → high → new = .highTrip)
        ∧ (old = .normal → ¬ high → low → new = .lowTrip)
        ∧ (old = .normal → ¬ high → ¬ low → new = .normal)
        ∧ (old = .highTrip → cooled → new = .normal) ∧ (old = .highTrip → ¬ cooled → new = .highTrip)
        ∧ (old = .lowTrip → warmed → new = .normal) ∧ (old = .lowTrip → ¬ warmed → new = .lowTrip)
        ∧ (old = .blind → new = .normal))
    ∧ (new ≠ old → (∃ x ∈ t.eng.reports, x.key = .zone z)
        ∧ (new ≠ .normal →
          (t.eng.zone z).trip.trigger = some new
          ∧ (t.eng.zone z).trip.hottest = (if new = .blind then none else r.hottest)
          ∧ (t.eng.zone z).trip.coldest = (if new = .blind then none else r.coldest)
          ∧ (s.eng.part = .parked → k = .parked → t.eng.part = .waking ∧ t.eng.wake = .scanDue)))
    ∧ (new ≠ old → (new = .highTrip ∨ new = .lowTrip) → (s.tab.zone z).reserve ≠ none →
        (s.eng.part = .parked ∨ s.eng.part = .waking) → s.eng.restsOutsideReady →
        (t.eng.zone z).pending = true ∧ (t.eng.zone z).trip.outcome = .pending)
    ∧ (s.atFullScanEnd f ord → ord.channelsFirst = [] → (∀ y, y ≠ z → s.zoneStands y) → new ≠ old →
        s.eng.crg.state = .disabled →
        let cause : Ending := ⟨if new = .blind then .zoneBlind else .zoneTrip, .zone z, none⟩
        (∀ c o, s.eng.settledOn c → s.eng.order c = some o → o.owner = .host → (s.tab.zone z).reserve = none →
          let p := s.tab.entry o.copy.path
          (new = .highTrip ∧ p.sink = z ∨ new = .lowTrip ∧ p.source = z ∨ new = .blind ∧ (p.source = z ∨ p.sink = z)) →
          (o.phase = .waiting → t.eng.order c = none ∧ (t.eng.channel c).recordQueued = true
            ∧ ∃ n, ⟨.completion (recordOf c o cause), n⟩ ∈ t.eng.reports)
          ∧ ((o.phase = .setting
              ∨ o.phase = .running ∧ (s.eng.meter p.meter).state = .valid ∧ s.sbe.meterInputs p.meter ≠ none) →
            p.runDown ≠ 0 → ∃ o', t.eng.order c = some o' ∧ o'.endsWith cause))
        ∧ (∀ c slot, s.eng.settledOn c → s.eng.order c = none → (s.tab.zone z).reserve = some ⟨c, slot⟩ →
          (new = .highTrip ∨ new = .lowTrip) →
          (∀ x, t.eng.fetchFirst s.tab (.reserve z) 0 slot = .ok x →
            (t.eng.zone z).trip.outcome = .started ∧ ∃ o, t.eng.order c = some o ∧ o.owner = .reserve z ∧ o.cls = 0
              ∧ o.tag = 0 ∧ o.firstSlot = some slot ∧ o.copy = x ∧ (o.phase = .waiting ∨ o.phase = .setting))
          ∧ ∀ g, t.eng.fetchFirst s.tab (.reserve z) 0 slot = .error g →
            (t.eng.zone z).trip.outcome = .ended g.cause 0 ∧ t.eng.order c = none)
        ∧ (s.eng.noOrders → new = .normal → (s.eng.zone z).pending = true →
          (t.eng.zone z).pending = false ∧ (t.eng.zone z).trip.outcome = .notStarted))
    ∧ ((t.eng.zone z).depleted = true ↔ ∃ v x, r.coldest = some v ∧ l.softLow = some x ∧ v ≤ x)
    ∧ ((t.eng.zone z).full = true ↔ ∃ v x, r.hottest = some v ∧ l.softHigh = some x ∧ x ≤ v)

/-- What a scan end makes of a meter, its expiries coming as rows of their own: VALID with its rate afresh from valid inputs, HOLDING with the hold count raised, or INVALID; in HAND-OVER heat from the held rate and a rate from valid inputs, and the judgement from its inputs once the hand-over has ended (R14 to R20, log 3). That a meter recorded VALID then holds the rate of the last scan with valid inputs is read from R17 (log 34). -/
def Obligations.MeterJudged : Prop :=
  ∀ (s : State) (f : Feedback) (ord : ScanOrder) (k : ScanKind) (m : Meter), s.run = .running →
    s.sbe.scan = some ⟨k, []⟩ → k ≠ .parked → ord.due = .separate →
    let x := s.eng.meter m
    let hold := s.tab.tuning.meterHold
    let rateOf (i : MeterInputs) := meterRate i.flow s.tab.tuning.coolant i.ret i.supply
    let judged := x.state ≠ .handOver ∨ x.handOverEnded = true
    let was (y : MeterState) := x.state = y ∨ x.state = .handOver ∧ x.handOverEnded = true ∧ x.before = some y
    ∃ t, exec (.scanEnd f ord) s = .next t
      ∧ (∀ i, judged → s.sbe.meterInputs m = some i →
          t.eng.meter m = ⟨.valid, some (rateOf i), none, 0, none, (x.residue + rateOf i).tmod 10, false, false⟩)
      ∧ (∀ rate, s.sbe.meterInputs m = none → was .valid → x.rate = some rate → hold ≠ 0 →
          t.eng.meter m = ⟨.holding, some rate, some rate, 1, none, (x.residue + rate).tmod 10, false, false⟩)
      ∧ (∀ rate, s.sbe.meterInputs m = none → was .holding → x.held = some rate →
          t.eng.meter m = ⟨.holding, x.rate, some rate, x.holdCount + 1, none, (x.residue + rate).tmod 10, false,
            decide (hold * 10 ≤ x.holdCount + 1)⟩)
      ∧ (s.sbe.meterInputs m = none → (x.state = .invalid ∨ was .valid ∧ hold = 0) →
          t.eng.meter m = ⟨.invalid, none, none, 0, none, 0, false, false⟩)
      ∧ (∀ rate, x.state = .handOver → x.handOverEnded = false → x.held = some rate → ∃ ended, t.eng.meter m = { x with
          rate := (match s.sbe.meterInputs m with
            | none => x.rate
            | some i => some (rateOf i))
          residue := (x.residue + rate).tmod 10, handOverEnded := ended })

/-- A RUNNING host order that the scan end neither ends nor disturbs counts the scan's heat, its times, and regulates its demands from the metered rate (R57, R60, R62). -/
def Obligations.RunningCounts : Prop :=
  ∀ (s : State) (f : Feedback) (ord : ScanOrder) (c : ChannelNo) (o : Order) (r : Nat) (i : MeterInputs), s.run = .running →
    s.sbe.scan = some ⟨.full, []⟩ → s.eng.part = .ready → ord.due = .separate →
    ord.channelsFirst.Nodup → (∀ n, (Bank.nth f.outputs n).current < 1200) → s.eng.crg.state = .disabled →
    (∀ z, (s.eng.zone z).state = zoneNext (s.tab.zone z).limits (Bank.nth s.sbe.formReadings z.idx) (s.eng.zone z).state) →
    (∀ c', c' ≠ c → s.eng.order c' = none) → s.eng.order c = some o → o.phase = .running →
    let p := s.tab.entry o.copy.path
    depletedVerdict (s.tab.zone p.source).limits (Bank.nth s.sbe.formReadings p.source.idx) = false →
    fullVerdict (s.tab.zone p.sink).limits (Bank.nth s.sbe.formReadings p.sink.idx) = false →
    (s.eng.meter p.meter).state = .valid → s.sbe.meterInputs p.meter = some i →
    let rate := meterRate i.flow s.tab.tuning.coolant i.ret i.supply
    let heat := inSense p.sense (((s.eng.meter p.meter).residue + rate).tdiv 10)
    o.remaining = some r → heat < r → o.meterHeld = false → o.lead = none →
    o.copy.flags.continue_ = false → o.copy.flags.next = false →
    (o.copy.timeLimit = 0 ∨ o.segTime + 1 < o.copy.timeLimit * 10) →
    let moved := movedCorrections p o.copy (inSense p.sense rate) o.corrections
    ∃ t, exec (.scanEnd f ord) s = .next t ∧ (∀ c', c' ≠ c → t.eng.order c' = none)
      ∧ t.eng.order c = some { o with
          orderTime := o.orderTime + 1, segTime := o.segTime + 1, delivered := o.delivered + heat
          remaining := some (r - heat), corrections := moved, demands := runDemands p o.copy moved false }

/-- At a full scan's end in READY, an output that is IN-SERVICE, present, below the overcurrent bound and outside a hand-over takes the target that its role's holders demand, and its level moves toward it by its kind's ramp (R117, R118). That the compressor comes down by its ramp while EQUALIZING too, where R87 says that it is held at 0, is the model's choice (log 12). -/
def Obligations.OutputsDriven : Prop :=
  ∀ (s : State) (f : Feedback) (ord : ScanOrder) (o : OutputNo), s.run = .running →
    s.sbe.scan = some ⟨.full, []⟩ → s.eng.part = .ready → ord.due = .separate →
    s.eng.ost.handOver = none → (o = 8 → s.tab.straps.spare = true) → (s.eng.output o).state = .inService →
    (Bank.nth f.outputs o).current < 1200 →
    ∃ t, exec (.scanEnd f ord) s = .next t
      ∧ (t.eng.output o).state = .inService ∧ (t.eng.output o).current = (Bank.nth f.outputs o).current
      ∧ (∀ r, t.eng.ost.served o = some r → (t.eng.output o).target
          = (let ds := (t.eng.mar.grants.filter (fun g => g.names r)).map (fun g =>
              match t.eng.order g.channel with
              | none => 0
              | some x => Bank.nth x.demands r.idx)
            if r.pumpOrFan then ds.foldl max 0 else ds.sum))
      ∧ (t.eng.ost.served o = none → (t.eng.output o).target = 0)
      ∧ (t.eng.output o).level = (let a := (s.eng.output o).level
          let b := (t.eng.output o).target
          match outputKind o with
          | .pump | .fan => if a ≤ b then min b (a + 20) else max b (a - 20)
          | .compressor => if a ≤ b then min b (a + 5) else max b (a - 5)
          | .heater | .chiller => b)

/-! ## What falls due -/

/-- METER HOLD EXPIRY: the meter is INVALID; a RUNNING channel on it enters ENDING, METER-LOST, counting nothing; one in ENDING stops counting; the rest stay (R18, R77). No path of a RUNNING channel has a run-down time of 0 here, with which the order would end at once (R78). That the run-down of a channel that was RUNNING has its counting stopped, a meter that recovers during it included, is the model's reading (log 31). -/
def Obligations.MeterHoldExpires : Prop :=
  ∀ (s : State) (m : Meter), s.run = .running → (s.eng.meter m).state = .holding → (s.eng.meter m).expiryDue = true →
    (∀ c o, s.eng.order c = some o → o.phase = .running → (s.tab.entry o.copy.path).runDown ≠ 0) →
    ∃ t, exec (.meterHoldExpiry m) s = .next t ∧ t.eng.meter m = ⟨.invalid, none, none, 0, none, 0, false, false⟩
      ∧ (∀ c, s.eng.order c = none → t.eng.order c = none)
      ∧ ∀ c o, s.eng.order c = some o →
        let n := (s.tab.entry o.copy.path).runDown * 10
        let onIt := (s.tab.entry o.copy.path).meter = m
        (onIt → o.phase = .running → t.eng.order c = some { o with
          phase := .ending ⟨.endWith ⟨.meterLost, .meter m, none⟩, n, n, o.demands, true⟩, carry := 0
          notes := { o.notes with overrun := o.notes.overrun + o.carry }, failure := none, lead := none })
        ∧ (∀ r, onIt → o.phase = .ending r →
            t.eng.order c = some { o with phase := .ending { r with countingStopped := true } })
        ∧ ((¬ onIt ∨ o.phase = .waiting ∨ o.phase = .setting) → t.eng.order c = some o)

/-- RESERVE PENDING START: the one zone pending for an IDLE channel of a READY part is served; its start is an order of class 0 in WAITING, or it fails and the outcome is ENDED with the cause; the zone's report follows, and on channel 5 the regulator is told of the start, a failed one included (R54, R142, R143, R147, R148, R161). A failed start gives one zone report by the model's choice (log 9). -/
def Obligations.ReservePendingStarts : Prop :=
  ∀ (s : State) (c : ChannelNo) (z : Zone) (slot : SlotNo), s.run = .running → s.eng.part = .ready →
    s.eng.order c = none → (s.eng.zone z).pending = true → (s.tab.zone z).reserve = some ⟨c, slot⟩ →
    (∀ y x, y ≠ z → (s.tab.zone y).reserve = some ⟨c, x⟩ → (s.eng.zone y).pending = false) →
    let e := s.eng.setPending z false
    let told := if c = 5 then e.putRegState e.crg.state.afterNotice else e
    (∀ g, s.eng.fetchFirst s.tab (.reserve z) 0 slot = .error g →
      exec (.reservePendingStart c) s = .next (s.putEngine ((told.setOutcome z (.ended g.cause 0)).handZone z)))
    ∧ (∀ x, s.eng.fetchFirst s.tab (.reserve z) 0 slot = .ok x →
      let o : Order := {
        phase := .waiting, owner := .reserve z, tag := 0, cls := 0, firstSlot := some slot, copy := x
        previous := none, next := none, prefetchMade := false, failure := none, remaining := x.quantity.map (· * 10)
        carry := 0, delivered := 0, segTime := 0, runFlag := false, orderTime := 0, waitTimer := 0, waitLimit := 0
        demands := Vector.replicate 8 0, corrections := Vector.replicate 8 0, lead := none, meterHeld := false
        notes := ⟨false, false, 0⟩ }
      let e1 := told.setOutcome z .started
      exec (.reservePendingStart c) s = .next (s.putEngine
        (((Engine.grantScan s.tab ((e1.putOrder c (some o)).submitBack s.tab c o)).prefetch s.tab c).handZone z)))

/-- The timers of an order: a segment at its time limit ends short, TIME, or COMPLETE when SHORT-OK stands without a chain; a lead at 0 leaves the demands; a wait at its limit ends the order STARVED; a run-down at 0 releases the grants and ends the order or takes the successor (R58, R63, R69, R71, R72, R78). The sequence of release, scan, claim and prefetch is the model's (log 10). -/
def Obligations.OrderTimers : Prop :=
  ∀ (s : State) (c : ChannelNo) (o : Order), s.run = .running → s.eng.order c = some o →
    let p := s.tab.entry o.copy.path
    let n := p.runDown * 10
    let k := Engine.grantScan s.tab
    let endedWith (cause : Cause) (notes : Notes) := s.putEngine (s.eng.putOrder c (some { o with
      phase := .ending ⟨.endWith ⟨cause, .absent, none⟩, n, n, o.demands, false⟩, carry := 0
      notes := { notes with overrun := notes.overrun + o.carry }, failure := none, lead := none }))
    let limitReached := o.phase = .running ∧ o.remaining ≠ some 0 ∧ o.copy.timeLimit ≠ 0 ∧ o.copy.timeLimit * 10 ≤ o.segTime
    (limitReached → 0 < n → o.copy.flags.shortOk = false →
      exec (.segmentTimeLimit c) s = .next (endedWith .time o.notes))
    ∧ (limitReached → 0 < n → o.owner ≠ .regulator → o.copy.flags.shortOk = true → o.copy.flags.continue_ = false →
        o.copy.flags.next = false →
        exec (.segmentTimeLimit c) s = .next (endedWith .complete { o.notes with shortSeen := true }))
    ∧ (o.phase = .running → o.lead = some 0 →
        exec (.leadEnd c) s = .next (s.putEngine (s.eng.putOrder c (some { o with
          lead := none, demands := runDemands p o.copy o.corrections false }))))
    ∧ (o.phase = .waiting → o.owner = .host → o.waitLimit ≠ 0 → o.waitLimit * 10 ≤ o.waitTimer →
        exec (.waitLimitReached c) s = .next (s.putEngine ((k (((s.eng.withdraw c).hand
          (.completion (recordOf c o ⟨.starved, .absent, none⟩))).putChannel c ⟨none, true⟩)).servePending s.tab k c)))
    ∧ (∀ r, o.phase = .ending r → r.timer = 0 →
        let e := if s.eng.holds c then k (s.eng.release c) else s.eng
        (∀ g, r.purpose = .endWith g → o.owner = .host →
          exec (.runDownEnd c) s = .next (s.putEngine (((e.hand (.completion (recordOf c o g))).putChannel c
            ⟨none, true⟩).servePending s.tab k c)))
        ∧ (∀ x, r.purpose = .transition → o.next = some x → e.setup s.tab o.owner x = none →
          let o' : Order := { o with
            phase := .waiting, copy := x, previous := o.copy.slot, next := none, prefetchMade := false, failure := none
            remaining := x.quantity.map (· * 10), segTime := 0, runFlag := false, waitTimer := 0
            demands := Vector.replicate 8 0, corrections := Vector.replicate 8 0, lead := none
            meterHeld := o.meterHeld && decide (p.meter = (s.tab.entry x.path).meter) }
          exec (.runDownEnd c) s = .next (s.putEngine
            ((k ((e.putOrder c (some o')).submitFront s.tab c o')).prefetch s.tab c))))

/-- OPEN LOAD and STALL: the output is FAULTED with the kind and driven at 0, no set holds its role any more, its report stands in the queue, the other outputs stay (R110, R121 to R123). -/
def Obligations.OutputFaults : Prop :=
  ∀ (s : State) (o : OutputNo), s.run = .running → s.eng.part = .ready → (s.eng.output o).state = .inService →
    let faults (c : Instr) (k : OutputFault) := ∃ t, exec c s = .next t
      ∧ t.eng.output o = { s.eng.output o with
          state := .faulted, fault := some k, target := 0, level := 0, openCount := 0, stallCount := 0, testTimer := none }
      ∧ (∀ x, x ≠ o → t.eng.output x = s.eng.output x)
      ∧ (∀ r, s.eng.ost.served o = some r → ∀ g ∈ t.eng.mar.grants, g.names r = false)
      ∧ ∃ n, ⟨.output ⟨o, s.eng.ost.served o, some k, .faulted⟩, n⟩ ∈ t.eng.reports
    (10 ≤ (s.eng.output o).openCount → faults (.openLoad o) .openLoad)
    ∧ ((s.eng.output o).openCount < 10 → 30 ≤ (s.eng.output o).stallCount → faults (.stall o) .stall)

/-- The timers of the movers: an equalize that is over leaves the target mode, its circuit and STEADY, with a grant scan; a test whose timer is at 0 is judged on its readings; a hand-over at 0 is over and the loop's meter told (R105, R125, R127). -/
def Obligations.MoverTimers : Prop :=
  ∀ s : State, s.run = .running →
    (∀ m, s.eng.mar.comp.condition = .equalizing m 0 →
      exec .equalizeEnd s = .next (s.putEngine (Engine.grantScan s.tab
        { s.eng with mar := { s.eng.mar with comp := ⟨some m, .steady⟩ }, ost := { s.eng.ost with circuit := m } })))
    ∧ (∀ o : OutputNo, s.eng.part = .ready → (s.eng.output o).state = .testing → (s.eng.output o).testTimer = some 0 →
        let x := s.eng.output o
        let fails (k : OutputFault) := exec (.outputTestEnd o) s = .next (s.putEngine ((s.eng.putOutput o { x with
            state := .faulted, fault := some k, target := 0, level := 0, openCount := 0, stallCount := 0
            testTimer := none }).hand (.output ⟨o, s.eng.ost.served o, some k, .faulted⟩)))
        (x.current < 50 → fails .openLoad)
        ∧ (50 ≤ x.current → (outputKind o).turns = true → x.speed < 150 → fails .stall)
        ∧ (50 ≤ x.current → ((outputKind o).turns = false ∨ 150 ≤ x.speed) →
            ∃ t, exec (.outputTestEnd o) s = .next t ∧ t.eng.output o = { x with
              state := .inService, fault := none, target := 0, level := 0, openCount := 0, stallCount := 0
              testTimer := none }))
    ∧ (∀ h, s.eng.part = .ready → s.eng.ost.handOver = some h → h.timer = 0 →
        ∃ t, exec .handOverEnd s = .next t ∧ t.eng.ost = { s.eng.ost with handOver := none }
          ∧ ∀ m, t.eng.meter m = if h.role.loopMeter = some m ∧ (s.eng.meter m).state = .handOver then
              { s.eng.meter m with handOverEnded := true } else s.eng.meter m)

/-- The travels of a valve: a TRAVELLING valve in position stops, and a SETTING channel whose valves now all stand and whose meter is VALID enters RUNNING; a drifted one travels again; a test turns at 0, and passes at the position it returns to (R56, R58, R119, R128). How a missing feedback counts is the model's (log 16). -/
def Obligations.ValveTravels : Prop :=
  ∀ (s : State) (v : ValveNo), s.run = .running → s.eng.part = .ready →
    let x := s.eng.valve v
    let stands := s.eng.putValve v { x with state := .atPosition, travelTimer := 0 }
    (x.state = .travelling → x.arrived = true →
      ((∀ c o, s.eng.order c = some o → o.phase = .setting → ∀ y ∈ (s.tab.entry o.copy.path).valves, y.1 ≠ v) →
        exec (.valveAtPosition v) s = .next (s.putEngine stands))
      ∧ (∀ c o, s.eng.order c = some o → o.phase = .setting → o.copy.flags.progress = false →
          let p := s.tab.entry o.copy.path
          (∀ c' o', c' ≠ c → s.eng.order c' = some o' → o'.phase = .setting →
            ∀ y ∈ (s.tab.entry o'.copy.path).valves, y.1 ≠ v) →
          (∃ y ∈ p.valves, y.1 = v) →
          (∀ y ∈ p.valves, (stands.valve y.1).state = .atPosition ∧ (stands.valve y.1).commanded = some y.2) →
          (s.eng.meter p.meter).state = .valid →
          let lead := if o.copy.flags.measure = false ∧ s.tab.tuning.leadThreshold ≤ o.copy.rate then
            some (s.tab.tuning.leadTime * 10) else none
          exec (.valveAtPosition v) s = .next (s.putEngine (stands.putOrder c (some { o with
            phase := .running, corrections := Vector.replicate 8 0, lead := lead, runFlag := true, meterHeld := false
            demands := runDemands p o.copy (Vector.replicate 8 0) (lead.any (fun n => decide (0 < n))) })))))
    ∧ (x.state = .atPosition → 10 ≤ x.driftCount →
        exec (.valveDrift v) s = .next (s.putEngine (s.eng.putValve v
          { x with state := .travelling, travelTimer := s.tab.tuning.valveTimeout * 10, driftCount := 0 })))
    ∧ (∀ back, x.test = some ⟨.toZero, back⟩ → x.reads 0 = true →
        exec (.valveTestFirstLeg v) s = .next (s.putEngine (s.eng.putValve v { x with
          commanded := some back, travelTimer := s.tab.tuning.valveTimeout * 10, test := some ⟨.back, back⟩ })))
    ∧ (∀ back, x.test = some ⟨.back, back⟩ → x.reads back = true →
        exec (.valveTestPass v) s = .next (s.putEngine (Engine.grantScan s.tab (s.eng.putValve v { x with
          state := .atPosition, commanded := some back, travelTimer := 0, driftCount := 0, fault := none
          test := none }))))

/-- A valve that runs out of time or loses its feedback is FAULTED with the kind and its test is over; a SETTING host order that claims it ends VALVE-FAULT with the valve as detail; one that only runs or waits stays (R75, R120, R128). -/
def Obligations.ValveFaults : Prop :=
  ∀ (s : State) (v : ValveNo), s.run = .running → s.eng.part = .ready →
    let x := s.eng.valve v
    let claims (o : Order) := o.phase = .setting ∧ ∃ y ∈ (s.tab.entry o.copy.path).valves, y.1 = v
    let faults (i : Instr) (k : ValveFault) :=
      let e := s.eng.putValve v { x with state := .faulted, fault := some k, travelTimer := 0, driftCount := 0, test := none }
      ((∀ c o, s.eng.order c = some o → ¬ claims o) → exec i s = .next (s.putEngine e))
      ∧ (∀ c o, s.eng.order c = some o → claims o → (∀ c' o', c' ≠ c → s.eng.order c' = some o' → ¬ claims o') →
          let n := (s.tab.entry o.copy.path).runDown * 10
          0 < n → o.owner = .host → exec i s = .next (s.putEngine (e.putOrder c (some { o with
            phase := .ending ⟨.endWith ⟨.valveFault, .valve v, none⟩, n, n, o.demands, false⟩, carry := 0
            notes := { o.notes with overrun := o.notes.overrun + o.carry }, failure := none, lead := none }))))
    (x.travelTimer = 0 → (x.state = .travelling ∧ x.arrived = false
        ∨ x.state = .faulted ∧ ((∃ b, x.test = some ⟨.toZero, b⟩ ∧ x.reads 0 = false)
          ∨ ∃ b, x.test = some ⟨.back, b⟩ ∧ x.reads b = false)) →
      faults (.valveTravelTimeout v) .travelTimeout)
    ∧ (x.missCount = 3 → (x.state ≠ .faulted ∨ x.test ≠ none) → faults (.valveFeedbackLost v) .feedbackLost)

/-- An event of the plant changes the engine alone, and in it neither the cabin target nor the regulator's settings nor the part state. -/
def Obligations.EventsLeaveAlone : Prop :=
  ∀ (s t : State) (c : Instr), plantEvent c = true → exec c s = .next t →
    t = s.putEngine t.eng ∧ t.eng.crg.target = s.eng.crg.target ∧ t.eng.crg.settings = s.eng.crg.settings
    ∧ t.eng.part = s.eng.part

/-! ## The panel -/

/-- The lines of the panel and their replies, with an empty buffer and no reply waiting: a well-formed target in range is written and echoed, "L" under the lock, "E" out of range or for any other line, the query reply to "Q"; a pause empties the buffer; a reply that has left is followed by the waiting one (R163, R164). -/
def Obligations.PanelLines : Prop :=
  (∀ s : State, s.run = .running → s.eng.part ≠ .starting → s.panel.buffer = [] → s.panel.overlong = false →
    s.panel.waiting = none →
    let sends (text : List Byte) : PanelPort := if s.panel.sending = none then { s.panel with sending := some (text ++ [0x0D]) }
      else { s.panel with waiting := some (text ++ [0x0D]) }
    (∀ a b c : Fin 10,
      let line : List Byte := [BitVec.ofNat 8 (48 + a.val), BitVec.ofNat 8 (48 + b.val), 0x2E, BitVec.ofNat 8 (48 + c.val)]
      let v : Int := a.val * 100 + b.val * 10 + c.val
      (s.panel.lock = false → 140 ≤ v → v ≤ 300 →
        exec (.panelTargetLine line) s = .next { s with
          panel := sends ([0x54, 0x3D] ++ line), eng := { s.eng with crg := { s.eng.crg with target := v } } })
      ∧ (s.panel.lock = true → exec (.panelTargetLine line) s = .next { s with panel := sends [0x4C] })
      ∧ (s.panel.lock = false → (v < 140 ∨ 300 < v) →
          exec (.panelTargetLine line) s = .next { s with panel := sends [0x45] }))
    ∧ (let text := queryReply s.eng.crg.target (Bank.nth s.sbe.readings Zone.cabin.idx).mean s.eng.crg.state
      exec .panelQueryLine s = .next { s with panel := sends text })
    ∧ (∀ line : List Byte, line ≠ [] → (∀ b ∈ line, b ≠ 0x0D ∧ b ≠ 0x0A) → (readLine line = .other ∨ 16 < line.length) →
        exec (.panelBadLine line) s = .next { s with panel := sends [0x45] })
    ∧ (∀ before after : List Byte, (∀ b ∈ before, b ≠ 0x0D) → (∀ b ∈ after, b ≠ 0x0D ∧ b ≠ 0x0A) → after.length ≤ 16 →
        exec (.panelLineTimeout before after) s = .next { s with panel := { s.panel with buffer := after } }))
  ∧ ∀ s : State, s.run = .running →
      exec .panelReplySent s = .next { s with panel := { s.panel with sending := s.panel.waiting, waiting := none } }

/-! ## Protection, reports, chains, layouts -/

/-- Under RESERVE-LOCK no command but those that restart the part or install an image changes slots 80 to 95, under LIMIT-LOCK none changes a limit, and neither lock is ever cleared by one (R39, R41, R43). -/
def Obligations.LocksProtect : Prop :=
  ∀ (s t : State) (c : Instr), restartsOrInstalls c = false → exec c s = .next t →
    (s.cfc.locks.reserve = true → t.cfc.locks.reserve = true
      ∧ ∀ i : SlotNo, 80 ≤ i.val → Bank.nth t.tab.slots i = Bank.nth s.tab.slots i)
    ∧ (s.cfc.locks.limit = true → t.cfc.locks.limit = true ∧ ∀ z, (t.tab.zone z).limits = (s.tab.zone z).limits)

/-- A report handed to the queue is queued at the back with count 0 when none of its kind and key stands, and otherwise replaces the one that stands in its place with the count raised, up to 255 (R168). -/
def Obligations.ReportHanded : Prop :=
  ∀ (q : List Report) (b : ReportBody),
    ((∀ r ∈ q, r.key ≠ b.key) → handReport q b = q ++ [⟨b, 0⟩])
    ∧ (∀ before r after, q = before ++ r :: after → r.key = b.key → (∀ x ∈ before ++ after, x.key ≠ b.key) →
        handReport q b = before ++ ⟨b, min 255 (r.count + 1)⟩ :: after)

/-- Locating a segment: the cases of R33, for a successor and for a first slot, with their errors and failing slots, and the copy taken of the slot that is found. -/
def Obligations.LocatingErrors : Prop :=
  (∀ (slots : Bank Segment 96) (reserve : Bool),
    let inArea (j : SlotNo) := if reserve then 80 ≤ j.val else j.val < 80
    let fails (d : ProgramDetail) (at_ : SlotNo) : Except Ending (SlotNo × Transfer) :=
      .error ⟨.programError, .program d, some at_⟩
    (∀ s : SlotNo, s.val = 95 → locateAfter slots reserve s = fails .pastEnd s)
    ∧ (∀ s : SlotNo, s.val = 79 → reserve = false → locateAfter slots reserve s = fails .areaCrossed s)
    ∧ (∀ (s : SlotNo) (h : s.val + 1 < 96), ¬ (s.val = 79 ∧ reserve = false) →
        locateAfter slots reserve s = locateAt slots reserve ⟨s.val + 1, h⟩)
    ∧ ∀ t : SlotNo,
      (∀ x, Bank.nth slots t = .transfer x → locateAt slots reserve t = .ok (t, x))
      ∧ (Bank.nth slots t = .empty → locateAt slots reserve t = fails .emptySlot t)
      ∧ ∀ j, Bank.nth slots t = .jump j →
        (¬ inArea j → locateAt slots reserve t = fails .jumpOutOfRange t)
        ∧ (∀ k, inArea j → Bank.nth slots j = .jump k → locateAt slots reserve t = fails .jumpToJump t)
        ∧ (inArea j → Bank.nth slots j = .empty → locateAt slots reserve t = fails .emptySlot j)
        ∧ (∀ x, inArea j → Bank.nth slots j = .transfer x → locateAt slots reserve t = .ok (j, x)))
  ∧ (∀ (e : Engine) (t : Tables) (owner : Owner) (cls : Fin 4) (first : SlotNo) (x : Copy),
      e.fetchFirst t owner cls first = .ok x → ∃ u y, locateAt t.slots owner.inReserve first = .ok (u, y)
        ∧ x = ⟨y.path, some y.quantity, y.rate, y.timeLimit, y.label, y.flags, some u⟩)
  ∧ ∀ (t : Tables) (o : Order) (s : SlotNo) (x : Copy), o.copy.slot = some s → successorOf t o = .ok x →
      ∃ u y, locateAfter t.slots o.owner.inReserve s = .ok (u, y)
        ∧ x = ⟨y.path, some y.quantity, y.rate, y.timeLimit, y.label, y.flags, some u⟩

/-- Segment bodies: every segment in range is read back from its 10 bytes, and every body that is read is the one its segment is written as (R28, R188). -/
def Obligations.SegmentRoundTrip : Prop :=
  (∀ x : Segment, segmentOk x = true → (segmentBytes x).length = 10 ∧ segmentOf (segmentBytes x) = some x)
  ∧ ∀ (bs : List Byte) (x : Segment), segmentOf bs = some x → segmentOk x = true ∧ segmentBytes x = bs

/-! ## Invariants -/

/-- Outside READY no order runs, the regulator starts none and every output is at 0, and every step keeps it so (R196, R197). -/
def Obligations.RestKept : Prop :=
  ∀ s t : State, s.eng.restsOutsideReady → step s = .next t → t.eng.restsOutsideReady

/-- Every step keeps the inputs consistent with the map under which the last scan began and with R9's table (R2, R4, R9, R10). -/
def Obligations.InputsKept : Prop :=
  ∀ s t : State, s.sbe.inputsOk → step s = .next t → t.sbe.inputsOk

/-- The queue never comes to hold two reports of one kind about one thing, and never more than 27 (R167). -/
def Obligations.ReportsKept : Prop :=
  ∀ s t : State, reportsDistinct s.eng.reports → step s = .next t →
    reportsDistinct t.eng.reports ∧ t.eng.reports.length ≤ 27

/-- Every step keeps the reply places of both ports and the snapshot of a save as R163, R180 and R193 have them. -/
def Obligations.PortsKept : Prop :=
  ∀ s t : State, step s = .next t →
    (s.link.repliesOk → t.link.repliesOk) ∧ (s.panel.placesOk → t.panel.placesOk) ∧ (s.cfc.saveOk → t.cfc.saveOk)

/-- The invariants hold right after reset. -/
def Obligations.InvariantsAtReset : Prop :=
  State.reset.eng.restsOutsideReady ∧ State.reset.sbe.inputsOk ∧ reportsDistinct State.reset.eng.reports
  ∧ State.reset.link.repliesOk ∧ State.reset.panel.placesOk ∧ State.reset.cfc.saveOk
end

