-- ==== Sys2Proof/Laws/State.lean ====
section
/-! SUPPORT. The small lemmas of the record updates: what each named update of the engine and of the state leaves and sets, field by field, and what a bank holds after a put. -/

namespace Sys2Proof

/-! ## Banks -/

@[simp] theorem Bank.nth_put_self {α : Type} {n : Nat} (b : Bank α n) (i : Fin n) (x : α) :
    Bank.nth (Bank.put b i x) i = x := by
  simp [Bank.nth, Bank.put]

theorem Bank.nth_put_ne {α : Type} {n : Nat} (b : Bank α n) {i j : Fin n} (x : α) (h : i ≠ j) :
    Bank.nth (Bank.put b i x) j = Bank.nth b j := by
  simp [Bank.nth, Bank.put, Fin.val_ne_of_ne h]

theorem Bank.nth_put {α : Type} {n : Nat} (b : Bank α n) (i j : Fin n) (x : α) :
    Bank.nth (Bank.put b i x) j = if i = j then x else Bank.nth b j := by
  by_cases h : i = j
  · subst h; simp
  · simp [h, Bank.nth_put_ne b x h]

@[simp] theorem Bank.nth_each {α : Type} {n : Nat} (b : Bank α n) (f : α → α) (i : Fin n) :
    Bank.nth (Bank.each b f) i = f (Bank.nth b i) := by
  simp [Bank.nth, Bank.each]

@[simp] theorem Bank.nth_replicate {α : Type} {n : Nat} (x : α) (i : Fin n) :
    Bank.nth (Vector.replicate n x) i = x := by
  simp [Bank.nth]

theorem Meter.idx_injective : ∀ a b : Meter, a.idx = b.idx → a = b := by
  intro a b; cases a <;> cases b <;> decide

theorem Zone.idx_injective : ∀ a b : Zone, a.idx = b.idx → a = b := by
  intro a b; cases a <;> cases b <;> decide

namespace Machine

/-! ## The engine's updates -/

/-! ### putChannel -/

@[simp] theorem Engine.putChannel_part (e : Engine) (c : ChannelNo) (x : Channel) : (e.putChannel c x).part = e.part := rfl
@[simp] theorem Engine.putChannel_wake (e : Engine) (c : ChannelNo) (x : Channel) : (e.putChannel c x).wake = e.wake := rfl
@[simp] theorem Engine.putChannel_meters (e : Engine) (c : ChannelNo) (x : Channel) : (e.putChannel c x).meters = e.meters := rfl
@[simp] theorem Engine.putChannel_channels (e : Engine) (c : ChannelNo) (x : Channel) : (e.putChannel c x).channels = Bank.put e.channels c x := rfl
@[simp] theorem Engine.putChannel_mar (e : Engine) (c : ChannelNo) (x : Channel) : (e.putChannel c x).mar = e.mar := rfl
@[simp] theorem Engine.putChannel_ost (e : Engine) (c : ChannelNo) (x : Channel) : (e.putChannel c x).ost = e.ost := rfl
@[simp] theorem Engine.putChannel_zones (e : Engine) (c : ChannelNo) (x : Channel) : (e.putChannel c x).zones = e.zones := rfl
@[simp] theorem Engine.putChannel_crg (e : Engine) (c : ChannelNo) (x : Channel) : (e.putChannel c x).crg = e.crg := rfl
@[simp] theorem Engine.putChannel_reports (e : Engine) (c : ChannelNo) (x : Channel) : (e.putChannel c x).reports = e.reports := rfl

/-! ### putOrder -/

@[simp] theorem Engine.putOrder_part (e : Engine) (c : ChannelNo) (o : Option Order) : (e.putOrder c o).part = e.part := rfl
@[simp] theorem Engine.putOrder_wake (e : Engine) (c : ChannelNo) (o : Option Order) : (e.putOrder c o).wake = e.wake := rfl
@[simp] theorem Engine.putOrder_meters (e : Engine) (c : ChannelNo) (o : Option Order) : (e.putOrder c o).meters = e.meters := rfl
@[simp] theorem Engine.putOrder_mar (e : Engine) (c : ChannelNo) (o : Option Order) : (e.putOrder c o).mar = e.mar := rfl
@[simp] theorem Engine.putOrder_ost (e : Engine) (c : ChannelNo) (o : Option Order) : (e.putOrder c o).ost = e.ost := rfl
@[simp] theorem Engine.putOrder_zones (e : Engine) (c : ChannelNo) (o : Option Order) : (e.putOrder c o).zones = e.zones := rfl
@[simp] theorem Engine.putOrder_crg (e : Engine) (c : ChannelNo) (o : Option Order) : (e.putOrder c o).crg = e.crg := rfl
@[simp] theorem Engine.putOrder_reports (e : Engine) (c : ChannelNo) (o : Option Order) : (e.putOrder c o).reports = e.reports := rfl

/-! ### putZone -/

@[simp] theorem Engine.putZone_part (e : Engine) (z : Zone) (x : ZoneRec) : (e.putZone z x).part = e.part := rfl
@[simp] theorem Engine.putZone_wake (e : Engine) (z : Zone) (x : ZoneRec) : (e.putZone z x).wake = e.wake := rfl
@[simp] theorem Engine.putZone_meters (e : Engine) (z : Zone) (x : ZoneRec) : (e.putZone z x).meters = e.meters := rfl
@[simp] theorem Engine.putZone_channels (e : Engine) (z : Zone) (x : ZoneRec) : (e.putZone z x).channels = e.channels := rfl
@[simp] theorem Engine.putZone_mar (e : Engine) (z : Zone) (x : ZoneRec) : (e.putZone z x).mar = e.mar := rfl
@[simp] theorem Engine.putZone_ost (e : Engine) (z : Zone) (x : ZoneRec) : (e.putZone z x).ost = e.ost := rfl
@[simp] theorem Engine.putZone_zones (e : Engine) (z : Zone) (x : ZoneRec) : (e.putZone z x).zones = Bank.put e.zones z.idx x := rfl
@[simp] theorem Engine.putZone_crg (e : Engine) (z : Zone) (x : ZoneRec) : (e.putZone z x).crg = e.crg := rfl
@[simp] theorem Engine.putZone_reports (e : Engine) (z : Zone) (x : ZoneRec) : (e.putZone z x).reports = e.reports := rfl

/-! ### putMeter -/

@[simp] theorem Engine.putMeter_part (e : Engine) (m : Meter) (x : MeterRec) : (e.putMeter m x).part = e.part := rfl
@[simp] theorem Engine.putMeter_wake (e : Engine) (m : Meter) (x : MeterRec) : (e.putMeter m x).wake = e.wake := rfl
@[simp] theorem Engine.putMeter_meters (e : Engine) (m : Meter) (x : MeterRec) : (e.putMeter m x).meters = Bank.put e.meters m.idx x := rfl
@[simp] theorem Engine.putMeter_channels (e : Engine) (m : Meter) (x : MeterRec) : (e.putMeter m x).channels = e.channels := rfl
@[simp] theorem Engine.putMeter_mar (e : Engine) (m : Meter) (x : MeterRec) : (e.putMeter m x).mar = e.mar := rfl
@[simp] theorem Engine.putMeter_ost (e : Engine) (m : Meter) (x : MeterRec) : (e.putMeter m x).ost = e.ost := rfl
@[simp] theorem Engine.putMeter_zones (e : Engine) (m : Meter) (x : MeterRec) : (e.putMeter m x).zones = e.zones := rfl
@[simp] theorem Engine.putMeter_crg (e : Engine) (m : Meter) (x : MeterRec) : (e.putMeter m x).crg = e.crg := rfl
@[simp] theorem Engine.putMeter_reports (e : Engine) (m : Meter) (x : MeterRec) : (e.putMeter m x).reports = e.reports := rfl

/-! ### putOutput -/

@[simp] theorem Engine.putOutput_part (e : Engine) (o : OutputNo) (x : OutputRec) : (e.putOutput o x).part = e.part := rfl
@[simp] theorem Engine.putOutput_wake (e : Engine) (o : OutputNo) (x : OutputRec) : (e.putOutput o x).wake = e.wake := rfl
@[simp] theorem Engine.putOutput_meters (e : Engine) (o : OutputNo) (x : OutputRec) : (e.putOutput o x).meters = e.meters := rfl
@[simp] theorem Engine.putOutput_channels (e : Engine) (o : OutputNo) (x : OutputRec) : (e.putOutput o x).channels = e.channels := rfl
@[simp] theorem Engine.putOutput_mar (e : Engine) (o : OutputNo) (x : OutputRec) : (e.putOutput o x).mar = e.mar := rfl
@[simp] theorem Engine.putOutput_ost (e : Engine) (o : OutputNo) (x : OutputRec) : (e.putOutput o x).ost = { e.ost with outputs := Bank.put e.ost.outputs o x } := rfl
@[simp] theorem Engine.putOutput_zones (e : Engine) (o : OutputNo) (x : OutputRec) : (e.putOutput o x).zones = e.zones := rfl
@[simp] theorem Engine.putOutput_crg (e : Engine) (o : OutputNo) (x : OutputRec) : (e.putOutput o x).crg = e.crg := rfl
@[simp] theorem Engine.putOutput_reports (e : Engine) (o : OutputNo) (x : OutputRec) : (e.putOutput o x).reports = e.reports := rfl

/-- The engine after one meter's judgement. -/
theorem Engine.judgeMeter_fst (t : Tables) (k : Engine → Engine) (i : Meter → Option MeterInputs)
    (x : Engine × Bank (Option Int) 4) (m : Meter) :
    (Engine.judgeMeter t k i x m).1
      = (x.1.putMeter m ((x.1.meter m).judge ⟨t.tuning.coolant, t.tuning.meterHold⟩ (i m)).meter).meterReport t k m
          ((x.1.meter m).judge ⟨t.tuning.coolant, t.tuning.meterHold⟩ (i m)).report := by
  unfold Engine.judgeMeter
  with_reducible rfl

/-! ### setCircuit -/

@[simp] theorem Engine.setCircuit_part (e : Engine) (m : Option Circuit) : (e.setCircuit m).part = e.part := rfl
@[simp] theorem Engine.setCircuit_wake (e : Engine) (m : Option Circuit) : (e.setCircuit m).wake = e.wake := rfl
@[simp] theorem Engine.setCircuit_meters (e : Engine) (m : Option Circuit) : (e.setCircuit m).meters = e.meters := rfl
@[simp] theorem Engine.setCircuit_channels (e : Engine) (m : Option Circuit) : (e.setCircuit m).channels = e.channels := rfl
@[simp] theorem Engine.setCircuit_mar (e : Engine) (m : Option Circuit) : (e.setCircuit m).mar = e.mar := rfl
@[simp] theorem Engine.setCircuit_ost (e : Engine) (m : Option Circuit) : (e.setCircuit m).ost = { e.ost with circuit := m.getD e.ost.circuit } := rfl
@[simp] theorem Engine.setCircuit_zones (e : Engine) (m : Option Circuit) : (e.setCircuit m).zones = e.zones := rfl
@[simp] theorem Engine.setCircuit_crg (e : Engine) (m : Option Circuit) : (e.setCircuit m).crg = e.crg := rfl
@[simp] theorem Engine.setCircuit_reports (e : Engine) (m : Option Circuit) : (e.setCircuit m).reports = e.reports := rfl

/-! ### putValve -/

@[simp] theorem Engine.putValve_part (e : Engine) (v : ValveNo) (x : ValveRec) : (e.putValve v x).part = e.part := rfl
@[simp] theorem Engine.putValve_wake (e : Engine) (v : ValveNo) (x : ValveRec) : (e.putValve v x).wake = e.wake := rfl
@[simp] theorem Engine.putValve_meters (e : Engine) (v : ValveNo) (x : ValveRec) : (e.putValve v x).meters = e.meters := rfl
@[simp] theorem Engine.putValve_channels (e : Engine) (v : ValveNo) (x : ValveRec) : (e.putValve v x).channels = e.channels := rfl
@[simp] theorem Engine.putValve_mar (e : Engine) (v : ValveNo) (x : ValveRec) : (e.putValve v x).mar = e.mar := rfl
@[simp] theorem Engine.putValve_ost (e : Engine) (v : ValveNo) (x : ValveRec) : (e.putValve v x).ost = { e.ost with valves := Bank.put e.ost.valves v x } := rfl
@[simp] theorem Engine.putValve_zones (e : Engine) (v : ValveNo) (x : ValveRec) : (e.putValve v x).zones = e.zones := rfl
@[simp] theorem Engine.putValve_crg (e : Engine) (v : ValveNo) (x : ValveRec) : (e.putValve v x).crg = e.crg := rfl
@[simp] theorem Engine.putValve_reports (e : Engine) (v : ValveNo) (x : ValveRec) : (e.putValve v x).reports = e.reports := rfl

/-! ### putRegState -/

@[simp] theorem Engine.putRegState_part (e : Engine) (r : RegState) : (e.putRegState r).part = e.part := rfl
@[simp] theorem Engine.putRegState_wake (e : Engine) (r : RegState) : (e.putRegState r).wake = e.wake := rfl
@[simp] theorem Engine.putRegState_meters (e : Engine) (r : RegState) : (e.putRegState r).meters = e.meters := rfl
@[simp] theorem Engine.putRegState_channels (e : Engine) (r : RegState) : (e.putRegState r).channels = e.channels := rfl
@[simp] theorem Engine.putRegState_mar (e : Engine) (r : RegState) : (e.putRegState r).mar = e.mar := rfl
@[simp] theorem Engine.putRegState_ost (e : Engine) (r : RegState) : (e.putRegState r).ost = e.ost := rfl
@[simp] theorem Engine.putRegState_zones (e : Engine) (r : RegState) : (e.putRegState r).zones = e.zones := rfl
@[simp] theorem Engine.putRegState_crg (e : Engine) (r : RegState) : (e.putRegState r).crg = { e.crg with state := r } := rfl
@[simp] theorem Engine.putRegState_reports (e : Engine) (r : RegState) : (e.putRegState r).reports = e.reports := rfl

/-! ### putClaims -/

@[simp] theorem Engine.putClaims_part (e : Engine) (l : List ClaimSet) : (e.putClaims l).part = e.part := rfl
@[simp] theorem Engine.putClaims_wake (e : Engine) (l : List ClaimSet) : (e.putClaims l).wake = e.wake := rfl
@[simp] theorem Engine.putClaims_meters (e : Engine) (l : List ClaimSet) : (e.putClaims l).meters = e.meters := rfl
@[simp] theorem Engine.putClaims_channels (e : Engine) (l : List ClaimSet) : (e.putClaims l).channels = e.channels := rfl
@[simp] theorem Engine.putClaims_mar (e : Engine) (l : List ClaimSet) : (e.putClaims l).mar = { e.mar with claims := l } := rfl
@[simp] theorem Engine.putClaims_ost (e : Engine) (l : List ClaimSet) : (e.putClaims l).ost = e.ost := rfl
@[simp] theorem Engine.putClaims_zones (e : Engine) (l : List ClaimSet) : (e.putClaims l).zones = e.zones := rfl
@[simp] theorem Engine.putClaims_crg (e : Engine) (l : List ClaimSet) : (e.putClaims l).crg = e.crg := rfl
@[simp] theorem Engine.putClaims_reports (e : Engine) (l : List ClaimSet) : (e.putClaims l).reports = e.reports := rfl

/-! ### putGrants -/

@[simp] theorem Engine.putGrants_part (e : Engine) (l : List ClaimSet) : (e.putGrants l).part = e.part := rfl
@[simp] theorem Engine.putGrants_wake (e : Engine) (l : List ClaimSet) : (e.putGrants l).wake = e.wake := rfl
@[simp] theorem Engine.putGrants_meters (e : Engine) (l : List ClaimSet) : (e.putGrants l).meters = e.meters := rfl
@[simp] theorem Engine.putGrants_channels (e : Engine) (l : List ClaimSet) : (e.putGrants l).channels = e.channels := rfl
@[simp] theorem Engine.putGrants_mar (e : Engine) (l : List ClaimSet) : (e.putGrants l).mar = { e.mar with grants := l } := rfl
@[simp] theorem Engine.putGrants_ost (e : Engine) (l : List ClaimSet) : (e.putGrants l).ost = e.ost := rfl
@[simp] theorem Engine.putGrants_zones (e : Engine) (l : List ClaimSet) : (e.putGrants l).zones = e.zones := rfl
@[simp] theorem Engine.putGrants_crg (e : Engine) (l : List ClaimSet) : (e.putGrants l).crg = e.crg := rfl
@[simp] theorem Engine.putGrants_reports (e : Engine) (l : List ClaimSet) : (e.putGrants l).reports = e.reports := rfl

/-! ### hand -/

@[simp] theorem Engine.hand_part (e : Engine) (b : ReportBody) : (e.hand b).part = e.part := rfl
@[simp] theorem Engine.hand_wake (e : Engine) (b : ReportBody) : (e.hand b).wake = e.wake := rfl
@[simp] theorem Engine.hand_meters (e : Engine) (b : ReportBody) : (e.hand b).meters = e.meters := rfl
@[simp] theorem Engine.hand_channels (e : Engine) (b : ReportBody) : (e.hand b).channels = e.channels := rfl
@[simp] theorem Engine.hand_mar (e : Engine) (b : ReportBody) : (e.hand b).mar = e.mar := rfl
@[simp] theorem Engine.hand_ost (e : Engine) (b : ReportBody) : (e.hand b).ost = e.ost := rfl
@[simp] theorem Engine.hand_zones (e : Engine) (b : ReportBody) : (e.hand b).zones = e.zones := rfl
@[simp] theorem Engine.hand_crg (e : Engine) (b : ReportBody) : (e.hand b).crg = e.crg := rfl
@[simp] theorem Engine.hand_reports (e : Engine) (b : ReportBody) : (e.hand b).reports = handReport e.reports b := rfl

/-! ### setOutcome -/

@[simp] theorem Engine.setOutcome_part (e : Engine) (z : Zone) (x : ReserveOutcome) : (e.setOutcome z x).part = e.part := rfl
@[simp] theorem Engine.setOutcome_wake (e : Engine) (z : Zone) (x : ReserveOutcome) : (e.setOutcome z x).wake = e.wake := rfl
@[simp] theorem Engine.setOutcome_meters (e : Engine) (z : Zone) (x : ReserveOutcome) : (e.setOutcome z x).meters = e.meters := rfl
@[simp] theorem Engine.setOutcome_channels (e : Engine) (z : Zone) (x : ReserveOutcome) : (e.setOutcome z x).channels = e.channels := rfl
@[simp] theorem Engine.setOutcome_mar (e : Engine) (z : Zone) (x : ReserveOutcome) : (e.setOutcome z x).mar = e.mar := rfl
@[simp] theorem Engine.setOutcome_ost (e : Engine) (z : Zone) (x : ReserveOutcome) : (e.setOutcome z x).ost = e.ost := rfl
@[simp] theorem Engine.setOutcome_crg (e : Engine) (z : Zone) (x : ReserveOutcome) : (e.setOutcome z x).crg = e.crg := rfl
@[simp] theorem Engine.setOutcome_reports (e : Engine) (z : Zone) (x : ReserveOutcome) : (e.setOutcome z x).reports = e.reports := rfl

/-! ### setPending -/

@[simp] theorem Engine.setPending_part (e : Engine) (z : Zone) (b : Bool) : (e.setPending z b).part = e.part := rfl
@[simp] theorem Engine.setPending_wake (e : Engine) (z : Zone) (b : Bool) : (e.setPending z b).wake = e.wake := rfl
@[simp] theorem Engine.setPending_meters (e : Engine) (z : Zone) (b : Bool) : (e.setPending z b).meters = e.meters := rfl
@[simp] theorem Engine.setPending_channels (e : Engine) (z : Zone) (b : Bool) : (e.setPending z b).channels = e.channels := rfl
@[simp] theorem Engine.setPending_mar (e : Engine) (z : Zone) (b : Bool) : (e.setPending z b).mar = e.mar := rfl
@[simp] theorem Engine.setPending_ost (e : Engine) (z : Zone) (b : Bool) : (e.setPending z b).ost = e.ost := rfl
@[simp] theorem Engine.setPending_crg (e : Engine) (z : Zone) (b : Bool) : (e.setPending z b).crg = e.crg := rfl
@[simp] theorem Engine.setPending_reports (e : Engine) (z : Zone) (b : Bool) : (e.setPending z b).reports = e.reports := rfl

/-! ### submitBack -/

@[simp] theorem Engine.submitBack_part (e : Engine) (t : Tables) (c : ChannelNo) (o : Order) : (e.submitBack t c o).part = e.part := rfl
@[simp] theorem Engine.submitBack_wake (e : Engine) (t : Tables) (c : ChannelNo) (o : Order) : (e.submitBack t c o).wake = e.wake := rfl
@[simp] theorem Engine.submitBack_meters (e : Engine) (t : Tables) (c : ChannelNo) (o : Order) : (e.submitBack t c o).meters = e.meters := rfl
@[simp] theorem Engine.submitBack_channels (e : Engine) (t : Tables) (c : ChannelNo) (o : Order) : (e.submitBack t c o).channels = e.channels := rfl
@[simp] theorem Engine.submitBack_ost (e : Engine) (t : Tables) (c : ChannelNo) (o : Order) : (e.submitBack t c o).ost = e.ost := rfl
@[simp] theorem Engine.submitBack_zones (e : Engine) (t : Tables) (c : ChannelNo) (o : Order) : (e.submitBack t c o).zones = e.zones := rfl
@[simp] theorem Engine.submitBack_crg (e : Engine) (t : Tables) (c : ChannelNo) (o : Order) : (e.submitBack t c o).crg = e.crg := rfl
@[simp] theorem Engine.submitBack_reports (e : Engine) (t : Tables) (c : ChannelNo) (o : Order) : (e.submitBack t c o).reports = e.reports := rfl

/-! ### submitFront -/

@[simp] theorem Engine.submitFront_part (e : Engine) (t : Tables) (c : ChannelNo) (o : Order) : (e.submitFront t c o).part = e.part := rfl
@[simp] theorem Engine.submitFront_wake (e : Engine) (t : Tables) (c : ChannelNo) (o : Order) : (e.submitFront t c o).wake = e.wake := rfl
@[simp] theorem Engine.submitFront_meters (e : Engine) (t : Tables) (c : ChannelNo) (o : Order) : (e.submitFront t c o).meters = e.meters := rfl
@[simp] theorem Engine.submitFront_channels (e : Engine) (t : Tables) (c : ChannelNo) (o : Order) : (e.submitFront t c o).channels = e.channels := rfl
@[simp] theorem Engine.submitFront_ost (e : Engine) (t : Tables) (c : ChannelNo) (o : Order) : (e.submitFront t c o).ost = e.ost := rfl
@[simp] theorem Engine.submitFront_zones (e : Engine) (t : Tables) (c : ChannelNo) (o : Order) : (e.submitFront t c o).zones = e.zones := rfl
@[simp] theorem Engine.submitFront_crg (e : Engine) (t : Tables) (c : ChannelNo) (o : Order) : (e.submitFront t c o).crg = e.crg := rfl
@[simp] theorem Engine.submitFront_reports (e : Engine) (t : Tables) (c : ChannelNo) (o : Order) : (e.submitFront t c o).reports = e.reports := rfl

/-! ### withdraw -/

@[simp] theorem Engine.withdraw_part (e : Engine) (c : ChannelNo) : (e.withdraw c).part = e.part := rfl
@[simp] theorem Engine.withdraw_wake (e : Engine) (c : ChannelNo) : (e.withdraw c).wake = e.wake := rfl
@[simp] theorem Engine.withdraw_meters (e : Engine) (c : ChannelNo) : (e.withdraw c).meters = e.meters := rfl
@[simp] theorem Engine.withdraw_channels (e : Engine) (c : ChannelNo) : (e.withdraw c).channels = e.channels := rfl
@[simp] theorem Engine.withdraw_ost (e : Engine) (c : ChannelNo) : (e.withdraw c).ost = e.ost := rfl
@[simp] theorem Engine.withdraw_zones (e : Engine) (c : ChannelNo) : (e.withdraw c).zones = e.zones := rfl
@[simp] theorem Engine.withdraw_crg (e : Engine) (c : ChannelNo) : (e.withdraw c).crg = e.crg := rfl
@[simp] theorem Engine.withdraw_reports (e : Engine) (c : ChannelNo) : (e.withdraw c).reports = e.reports := rfl

/-! ### release -/

@[simp] theorem Engine.release_part (e : Engine) (c : ChannelNo) : (e.release c).part = e.part := rfl
@[simp] theorem Engine.release_wake (e : Engine) (c : ChannelNo) : (e.release c).wake = e.wake := rfl
@[simp] theorem Engine.release_meters (e : Engine) (c : ChannelNo) : (e.release c).meters = e.meters := rfl
@[simp] theorem Engine.release_channels (e : Engine) (c : ChannelNo) : (e.release c).channels = e.channels := rfl
@[simp] theorem Engine.release_ost (e : Engine) (c : ChannelNo) : (e.release c).ost = e.ost := rfl
@[simp] theorem Engine.release_zones (e : Engine) (c : ChannelNo) : (e.release c).zones = e.zones := rfl
@[simp] theorem Engine.release_crg (e : Engine) (c : ChannelNo) : (e.release c).crg = e.crg := rfl
@[simp] theorem Engine.release_reports (e : Engine) (c : ChannelNo) : (e.release c).reports = e.reports := rfl

/-! ### setReason -/

@[simp] theorem Engine.setReason_part (e : Engine) (c : ChannelNo) (w : WaitReason) : (e.setReason c w).part = e.part := rfl
@[simp] theorem Engine.setReason_wake (e : Engine) (c : ChannelNo) (w : WaitReason) : (e.setReason c w).wake = e.wake := rfl
@[simp] theorem Engine.setReason_meters (e : Engine) (c : ChannelNo) (w : WaitReason) : (e.setReason c w).meters = e.meters := rfl
@[simp] theorem Engine.setReason_channels (e : Engine) (c : ChannelNo) (w : WaitReason) : (e.setReason c w).channels = e.channels := rfl
@[simp] theorem Engine.setReason_ost (e : Engine) (c : ChannelNo) (w : WaitReason) : (e.setReason c w).ost = e.ost := rfl
@[simp] theorem Engine.setReason_zones (e : Engine) (c : ChannelNo) (w : WaitReason) : (e.setReason c w).zones = e.zones := rfl
@[simp] theorem Engine.setReason_crg (e : Engine) (c : ChannelNo) (w : WaitReason) : (e.setReason c w).crg = e.crg := rfl
@[simp] theorem Engine.setReason_reports (e : Engine) (c : ChannelNo) (w : WaitReason) : (e.setReason c w).reports = e.reports := rfl

/-! ## The state's updates -/

/-! ### putEngine -/

@[simp] theorem State.putEngine_run (s : State) (x : Engine) : (s.putEngine x).run = s.run := rfl
@[simp] theorem State.putEngine_eng (s : State) (x : Engine) : (s.putEngine x).eng = x := rfl
@[simp] theorem State.putEngine_tab (s : State) (x : Engine) : (s.putEngine x).tab = s.tab := rfl
@[simp] theorem State.putEngine_sbe (s : State) (x : Engine) : (s.putEngine x).sbe = s.sbe := rfl
@[simp] theorem State.putEngine_cfc (s : State) (x : Engine) : (s.putEngine x).cfc = s.cfc := rfl
@[simp] theorem State.putEngine_link (s : State) (x : Engine) : (s.putEngine x).link = s.link := rfl
@[simp] theorem State.putEngine_panel (s : State) (x : Engine) : (s.putEngine x).panel = s.panel := rfl
@[simp] theorem State.putEngine_stored (s : State) (x : Engine) : (s.putEngine x).stored = s.stored := rfl
@[simp] theorem State.putEngine_pending (s : State) (x : Engine) : (s.putEngine x).pending = s.pending := rfl

/-! ### putTables -/

@[simp] theorem State.putTables_run (s : State) (x : Tables) : (s.putTables x).run = s.run := rfl
@[simp] theorem State.putTables_eng (s : State) (x : Tables) : (s.putTables x).eng = s.eng := rfl
@[simp] theorem State.putTables_tab (s : State) (x : Tables) : (s.putTables x).tab = x := rfl
@[simp] theorem State.putTables_sbe (s : State) (x : Tables) : (s.putTables x).sbe = s.sbe := rfl
@[simp] theorem State.putTables_cfc (s : State) (x : Tables) : (s.putTables x).cfc = s.cfc := rfl
@[simp] theorem State.putTables_link (s : State) (x : Tables) : (s.putTables x).link = s.link := rfl
@[simp] theorem State.putTables_panel (s : State) (x : Tables) : (s.putTables x).panel = s.panel := rfl
@[simp] theorem State.putTables_stored (s : State) (x : Tables) : (s.putTables x).stored = s.stored := rfl
@[simp] theorem State.putTables_pending (s : State) (x : Tables) : (s.putTables x).pending = s.pending := rfl

/-! ### putControl -/

@[simp] theorem State.putControl_run (s : State) (x : Control) : (s.putControl x).run = s.run := rfl
@[simp] theorem State.putControl_eng (s : State) (x : Control) : (s.putControl x).eng = s.eng := rfl
@[simp] theorem State.putControl_tab (s : State) (x : Control) : (s.putControl x).tab = s.tab := rfl
@[simp] theorem State.putControl_sbe (s : State) (x : Control) : (s.putControl x).sbe = s.sbe := rfl
@[simp] theorem State.putControl_cfc (s : State) (x : Control) : (s.putControl x).cfc = x := rfl
@[simp] theorem State.putControl_link (s : State) (x : Control) : (s.putControl x).link = s.link := rfl
@[simp] theorem State.putControl_panel (s : State) (x : Control) : (s.putControl x).panel = s.panel := rfl
@[simp] theorem State.putControl_stored (s : State) (x : Control) : (s.putControl x).stored = s.stored := rfl
@[simp] theorem State.putControl_pending (s : State) (x : Control) : (s.putControl x).pending = s.pending := rfl

/-! ### putLink -/

@[simp] theorem State.putLink_run (s : State) (x : LinkPort) : (s.putLink x).run = s.run := rfl
@[simp] theorem State.putLink_eng (s : State) (x : LinkPort) : (s.putLink x).eng = s.eng := rfl
@[simp] theorem State.putLink_tab (s : State) (x : LinkPort) : (s.putLink x).tab = s.tab := rfl
@[simp] theorem State.putLink_sbe (s : State) (x : LinkPort) : (s.putLink x).sbe = s.sbe := rfl
@[simp] theorem State.putLink_cfc (s : State) (x : LinkPort) : (s.putLink x).cfc = s.cfc := rfl
@[simp] theorem State.putLink_link (s : State) (x : LinkPort) : (s.putLink x).link = x := rfl
@[simp] theorem State.putLink_panel (s : State) (x : LinkPort) : (s.putLink x).panel = s.panel := rfl
@[simp] theorem State.putLink_stored (s : State) (x : LinkPort) : (s.putLink x).stored = s.stored := rfl
@[simp] theorem State.putLink_pending (s : State) (x : LinkPort) : (s.putLink x).pending = s.pending := rfl

/-! ### withPending -/

@[simp] theorem State.withPending_run (s : State) (x : List Instr) : (s.withPending x).run = s.run := rfl
@[simp] theorem State.withPending_eng (s : State) (x : List Instr) : (s.withPending x).eng = s.eng := rfl
@[simp] theorem State.withPending_tab (s : State) (x : List Instr) : (s.withPending x).tab = s.tab := rfl
@[simp] theorem State.withPending_sbe (s : State) (x : List Instr) : (s.withPending x).sbe = s.sbe := rfl
@[simp] theorem State.withPending_cfc (s : State) (x : List Instr) : (s.withPending x).cfc = s.cfc := rfl
@[simp] theorem State.withPending_link (s : State) (x : List Instr) : (s.withPending x).link = s.link := rfl
@[simp] theorem State.withPending_panel (s : State) (x : List Instr) : (s.withPending x).panel = s.panel := rfl
@[simp] theorem State.withPending_stored (s : State) (x : List Instr) : (s.withPending x).stored = s.stored := rfl
@[simp] theorem State.withPending_pending (s : State) (x : List Instr) : (s.withPending x).pending = x := rfl

/-! ### takeSlot -/

@[simp] theorem State.takeSlot_run (s : State) : s.takeSlot.run = s.run := rfl
@[simp] theorem State.takeSlot_eng (s : State) : s.takeSlot.eng = s.eng := rfl
@[simp] theorem State.takeSlot_tab (s : State) : s.takeSlot.tab = s.tab := rfl
@[simp] theorem State.takeSlot_sbe (s : State) : s.takeSlot.sbe = s.sbe := rfl
@[simp] theorem State.takeSlot_cfc (s : State) : s.takeSlot.cfc = { s.cfc with parkTimer := 0 } := rfl
@[simp] theorem State.takeSlot_link (s : State) : s.takeSlot.link = { s.link with slot := .taken } := rfl
@[simp] theorem State.takeSlot_panel (s : State) : s.takeSlot.panel = s.panel := rfl
@[simp] theorem State.takeSlot_stored (s : State) : s.takeSlot.stored = s.stored := rfl
@[simp] theorem State.takeSlot_pending (s : State) : s.takeSlot.pending = s.pending := rfl

/-! ### frameComplete -/

@[simp] theorem State.frameComplete_run (s : State) : s.frameComplete.run = s.run := rfl
@[simp] theorem State.frameComplete_eng (s : State) : s.frameComplete.eng = s.eng.wakeUp := rfl
@[simp] theorem State.frameComplete_tab (s : State) : s.frameComplete.tab = s.tab := rfl
@[simp] theorem State.frameComplete_sbe (s : State) : s.frameComplete.sbe = s.sbe := rfl
@[simp] theorem State.frameComplete_cfc (s : State) : s.frameComplete.cfc = s.cfc := rfl
@[simp] theorem State.frameComplete_link (s : State) : s.frameComplete.link = { s.link with rx := .hunting } := rfl
@[simp] theorem State.frameComplete_panel (s : State) : s.frameComplete.panel = s.panel := rfl
@[simp] theorem State.frameComplete_stored (s : State) : s.frameComplete.stored = s.stored := rfl
@[simp] theorem State.frameComplete_pending (s : State) : s.frameComplete.pending = s.pending := rfl

/-! ## Reading back what was put -/

@[simp] theorem Engine.channel_putChannel_self (e : Engine) (c : ChannelNo) (x : Channel) :
    (e.putChannel c x).channel c = x := Bank.nth_put_self _ _ _

theorem Engine.channel_putChannel_ne (e : Engine) {c d : ChannelNo} (x : Channel) (h : c ≠ d) :
    (e.putChannel c x).channel d = e.channel d := Bank.nth_put_ne _ _ h

@[simp] theorem Engine.order_putOrder_self (e : Engine) (c : ChannelNo) (o : Option Order) :
    (e.putOrder c o).order c = o := by
  simp [Engine.order, Engine.putOrder]

theorem Engine.order_putOrder_ne (e : Engine) {c d : ChannelNo} (o : Option Order) (h : c ≠ d) :
    (e.putOrder c o).order d = e.order d := by
  simp [Engine.order, Engine.putOrder, Engine.channel_putChannel_ne _ _ h]

@[simp] theorem Engine.zone_putZone_self (e : Engine) (z : Zone) (x : ZoneRec) : (e.putZone z x).zone z = x :=
  Bank.nth_put_self _ _ _

theorem Engine.zone_putZone_ne (e : Engine) {z y : Zone} (x : ZoneRec) (h : z ≠ y) :
    (e.putZone z x).zone y = e.zone y := Bank.nth_put_ne _ _ (fun k => h (Zone.idx_injective _ _ k))

@[simp] theorem Engine.meter_putMeter_self (e : Engine) (m : Meter) (x : MeterRec) : (e.putMeter m x).meter m = x :=
  Bank.nth_put_self _ _ _

theorem Engine.meter_putMeter_ne (e : Engine) {m k : Meter} (x : MeterRec) (h : m ≠ k) :
    (e.putMeter m x).meter k = e.meter k := Bank.nth_put_ne _ _ (fun q => h (Meter.idx_injective _ _ q))

@[simp] theorem Engine.output_putOutput_self (e : Engine) (o : OutputNo) (x : OutputRec) :
    (e.putOutput o x).output o = x := Bank.nth_put_self _ _ _

theorem Engine.output_putOutput_ne (e : Engine) {o p : OutputNo} (x : OutputRec) (h : o ≠ p) :
    (e.putOutput o x).output p = e.output p := Bank.nth_put_ne _ _ h

@[simp] theorem Engine.valve_putValve_self (e : Engine) (v : ValveNo) (x : ValveRec) :
    (e.putValve v x).valve v = x := Bank.nth_put_self _ _ _

theorem Engine.valve_putValve_ne (e : Engine) {v w : ValveNo} (x : ValveRec) (h : v ≠ w) :
    (e.putValve v x).valve w = e.valve w := Bank.nth_put_ne _ _ h

/-! ## Waking -/

@[simp] theorem Engine.wakeUp_ready (e : Engine) (h : e.part = .ready) : e.wakeUp = e := by
  unfold Engine.wakeUp; rw [h]

theorem Engine.wakeUp_part (e : Engine) : e.wakeUp.part = if e.part = .parked then .waking else e.part := by
  unfold Engine.wakeUp; cases h : e.part <;> simp [h]

@[simp] theorem Engine.wakeUp_meters (e : Engine) : e.wakeUp.meters = e.meters := by
  unfold Engine.wakeUp; cases e.part <;> rfl

@[simp] theorem Engine.wakeUp_channels (e : Engine) : e.wakeUp.channels = e.channels := by
  unfold Engine.wakeUp; cases e.part <;> rfl

@[simp] theorem Engine.wakeUp_mar (e : Engine) : e.wakeUp.mar = e.mar := by
  unfold Engine.wakeUp; cases e.part <;> rfl

@[simp] theorem Engine.wakeUp_ost (e : Engine) : e.wakeUp.ost = e.ost := by
  unfold Engine.wakeUp; cases e.part <;> rfl

@[simp] theorem Engine.wakeUp_zones (e : Engine) : e.wakeUp.zones = e.zones := by
  unfold Engine.wakeUp; cases e.part <;> rfl

@[simp] theorem Engine.wakeUp_crg (e : Engine) : e.wakeUp.crg = e.crg := by
  unfold Engine.wakeUp; cases e.part <;> rfl

@[simp] theorem Engine.wakeUp_reports (e : Engine) : e.wakeUp.reports = e.reports := by
  unfold Engine.wakeUp; cases e.part <;> rfl

end Machine

end Sys2Proof
end

