-- ==== Sys2Proof/Laws/Arbiter.lean ====
section
/-! SUPPORT. What the arbiter's operations can do: a grant (R93), the grant scan over an empty claim list and over one set (R99, R100), and when an entry or a set is grantable (R95 to R98). -/

namespace Sys2Proof.Machine

open Sys2Proof

/-! ## Grants and the grant scan -/

/-- A grant scan with no claim waiting does nothing. -/
theorem grantScan_nil {t : Tables} {e : Engine} (h : e.mar.claims = []) : Engine.grantScan t e = e := by
  unfold Engine.grantScan Engine.walk
  rw [h]
  rfl

theorem commandValves_mar (e : Engine) (t : Tables) (before : List ClaimSet) (s : ClaimSet) :
    (e.commandValves t before s).mar = e.mar := by
  unfold Engine.commandValves
  refine List.foldlRecOn (motive := fun x : Engine => x.mar = e.mar) _ _ rfl (fun x h y _ => ?_)
  split
  · exact h
  · exact h

/-- A granted set leaves the claim list and enters the holder table behind the others. -/
theorem grant_mar (e : Engine) (t : Tables) (s : ClaimSet) : (e.grant t s).mar
    = ⟨e.mar.claims.filter (fun x => decide (x.channel ≠ s.channel)), e.mar.grants ++ [{ s with reason := none }],
      e.mar.comp.taken s⟩ := by
  unfold Engine.grant
  rw [commandValves_mar]
  unfold Engine.mapOrder
  split <;> rfl

/-- The walk goes no further once every claim is of a channel already judged. -/
theorem walk_over {t : Tables} {n : Nat} {judged : List ChannelNo} {left : List ClaimSet} {e : Engine}
    (h : ∀ s ∈ e.mar.claims, s.channel ∈ judged) : Engine.walk t n judged left e = e := by
  cases n with
  | zero => rfl
  | succ n =>
    unfold Engine.walk
    have : e.mar.claims.find? (fun s => !judged.contains s.channel) = none := by
      rw [List.find?_eq_none]
      intro s hs
      simpa using h s hs
    rw [this]

/-- What a set that is judged leaves in a claim list that held it alone. -/
theorem settle_claims {t : Tables} {e : Engine} {s : ClaimSet} (h : e.mar.claims = [s]) :
    ∀ x ∈ (e.settle t s).mar.claims, x.channel = s.channel := by
  unfold Engine.settle
  split
  · rw [grant_mar, h]
    simp
  · split
    · unfold Engine.beginModeChange
      split
      · rw [h]; simp
      · simp only [Engine.setReason, Engine.putClaims, h]
        simp
    · simp [Engine.setReason, Engine.putClaims, h]

/-- A grant scan over a claim list of one set whose class revokes nothing: the set is granted, begins a mode change, or waits. -/
theorem grantScan_single {t : Tables} {e : Engine} {s : ClaimSet} (h : e.mar.claims = [s])
    (hc : s.cls ≠ 0 ∨ e.mar.grants = []) : Engine.grantScan t e = e.settle t s := by
  have hj : e.judgeSet t [] s = e.settle t s := by
    unfold Engine.judgeSet
    have hb : blockerOf [] s = none := rfl
    rw [hb]
    dsimp only
    split
    · rename_i hp
      rcases hc with hc | hc
      · exact absurd hp.1 hc
      · have hr : e.ready e.mar.grants s = true := by
          have := hp.2.2
          unfold Engine.preemptionSucceeds at this
          rw [hc] at this ⊢
          exact this
        unfold Engine.preempt
        rw [if_pos hr]
    · rfl
  unfold Engine.grantScan Engine.walk
  have hf : e.mar.claims.find? (fun s => !([] : List ChannelNo).contains s.channel) = some s := by rw [h]; rfl
  rw [hf]
  dsimp only
  rw [hj]
  exact walk_over (fun x hx => by simp [settle_claims h x hx])

/-- Commanding a valve to one position twice is commanding it once. -/
theorem command_command (v : ValveRec) (timeout pos : Nat) : (v.command timeout pos).command timeout pos = v.command timeout pos := by
  unfold ValveRec.command
  by_cases h : v.commanded = some pos ∧ v.state = .atPosition <;> simp [h]

/-- What the commands of a granted set make of one valve, when the set names one position for it. -/
theorem valve_commands (t : Tables) (before : List ClaimSet) (v : ValveNo) (q : Nat) (l : List (ValveNo × Nat)) (e : Engine)
    (h : ∀ y ∈ l, y.1 = v → y.2 = q) :
    (l.foldl (fun e x => if (valveHoldersOf before x.1).isEmpty then
        e.putValve x.1 ((e.valve x.1).command t.tuning.valveTimeout x.2) else e) e).valve v
      = if (∃ y ∈ l, y.1 = v) ∧ (valveHoldersOf before v).isEmpty then (e.valve v).command t.tuning.valveTimeout q
        else e.valve v := by
  induction l generalizing e with
  | nil => simp
  | cons x l ih =>
    rw [List.foldl_cons, ih _ (fun y hy => h y (List.mem_cons_of_mem _ hy))]
    by_cases hx : x.1 = v
    · have hq : x.2 = q := h x (by simp) hx
      subst hx
      by_cases hv : (valveHoldersOf before x.1).isEmpty
      · by_cases hl : ∃ y ∈ l, y.1 = x.1 <;> simp [hv, hq, command_command]
      · simp [hv]
    · have hs : (if (valveHoldersOf before x.1).isEmpty then
          e.putValve x.1 ((e.valve x.1).command t.tuning.valveTimeout x.2) else e).valve v = e.valve v := by
        split
        · exact Engine.valve_putValve_ne _ _ hx
        · rfl
      rw [hs]
      have hm : (∃ y ∈ x :: l, y.1 = v) ↔ ∃ y ∈ l, y.1 = v := by
        constructor
        · rintro ⟨y, hy, rfl⟩
          rcases List.mem_cons.1 hy with rfl | hy
          · exact absurd rfl hx
          · exact ⟨y, hy, rfl⟩
        · rintro ⟨y, hy, rfl⟩; exact ⟨y, List.mem_cons_of_mem _ hy, rfl⟩
      simp only [hm]

theorem order_commandValves (e : Engine) (t : Tables) (before : List ClaimSet) (s : ClaimSet) (c : ChannelNo) :
    (e.commandValves t before s).order c = e.order c := by
  unfold Engine.commandValves
  refine List.foldlRecOn (motive := fun x : Engine => x.order c = e.order c) _ _ rfl (fun x h y _ => ?_)
  split <;> exact h

theorem order_mapOrder (e : Engine) (c d : ChannelNo) (f : Order → Order) :
    (e.mapOrder c f).order d = if c = d then (e.order d).map f else e.order d := by
  unfold Engine.mapOrder
  by_cases h : c = d
  · subst h
    split <;> simp [*]
  · rw [if_neg h]
    split
    · rfl
    · exact Engine.order_putOrder_ne _ _ h

/-- What a grant does to the orders: its channel's order enters SETTING with its starting levels, the others stay. -/
theorem order_grant (e : Engine) (t : Tables) (s : ClaimSet) (c : ChannelNo) : (e.grant t s).order c
    = if s.channel = c then (e.order c).map (fun o => o.granted t) else e.order c := by
  unfold Engine.grant
  rw [order_commandValves, order_mapOrder]
  rfl

/-- What a grant does to a valve for which the set names one position: it is commanded there unless another set holds it. -/
theorem valve_grant (e : Engine) (t : Tables) (s : ClaimSet) (v : ValveNo) (q : Nat) (h : ∀ y ∈ s.valves, y.1 = v → y.2 = q) :
    (e.grant t s).valve v = if (∃ y ∈ s.valves, y.1 = v) ∧ (valveHoldersOf e.mar.grants v).isEmpty then
      (e.valve v).command t.tuning.valveTimeout q else e.valve v := by
  unfold Engine.grant Engine.commandValves
  rw [valve_commands t e.mar.grants v q s.valves _ h]
  have hv : ∀ x : Engine, (x.mapOrder s.channel (fun o => o.granted t)).valve v = x.valve v := by
    intro x
    unfold Engine.mapOrder
    split <;> rfl
  rw [hv]
  rfl

/-! ## Grantability -/

theorem holdersOf_isEmpty (grants : List ClaimSet) (r : Role) :
    (holdersOf grants r).isEmpty = true ↔ ¬ ∃ g ∈ grants, g.names r = true := by
  simp [holdersOf, List.filter_eq_nil_iff]

theorem valveHoldersOf_isEmpty (grants : List ClaimSet) (v : ValveNo) :
    (valveHoldersOf grants v).isEmpty = true ↔ ¬ ∃ g ∈ grants, g.namesValve v = true := by
  simp [valveHoldersOf, List.filter_eq_nil_iff]

theorem shareUnmet_none (grants : List ClaimSet) (r : Role) (share : Nat) :
    shareUnmet grants r share = none ↔ sharesOn grants r + share ≤ 100 := by
  unfold shareUnmet
  split <;> simp_all

/-- When a role entry is grantable (R95 to R97). -/
theorem roleUnmet_none (e : Engine) (grants : List ClaimSet) (mode : Option Circuit) (r : Role) (share : Nat) :
    e.roleUnmet grants mode r share = none ↔ (e.output (e.mapped r)).state = .inService
      ∧ (r = .heater → sharesOn grants .heater + share ≤ 100)
      ∧ (r = .chiller → ¬ ∃ g ∈ grants, g.names .chiller = true)
      ∧ (r = .compressor → compressorUnmet e.mar.comp grants mode share = none) := by
  unfold Engine.roleUnmet
  cases hs : (e.output (e.mapped r)).state <;> cases r <;> simp [shareUnmet_none]
  simp [holdersOf, List.filter_eq_nil_iff]

/-- When the COMPRESSOR entry is grantable (R97). -/
theorem compressorUnmet_none (comp : Compressor) (grants : List ClaimSet) (mode : Option Circuit) (share : Nat) :
    compressorUnmet comp grants mode share = none ↔ comp.condition = .steady
      ∧ ((¬ ∃ g ∈ grants, g.names .compressor = true) → comp.mode = none ∨ comp.mode = mode)
      ∧ ((∃ g ∈ grants, g.names .compressor = true) → comp.mode = mode ∧ sharesOn grants .compressor + share ≤ 100) := by
  unfold compressorUnmet
  cases hc : comp.condition with
  | equalizing m n => simp
  | steady =>
    dsimp only
    by_cases h : ∃ g ∈ grants, g.names .compressor = true
    · rw [if_neg (by rw [holdersOf_isEmpty]; exact fun k => k h)]
      by_cases hm : comp.mode = mode <;> simp [h, hm, shareUnmet_none]
    · rw [if_pos ((holdersOf_isEmpty _ _).2 h)]
      by_cases hm : comp.mode = none ∨ comp.mode = mode <;> simp [h, hm]

/-- When a valve entry is grantable (R98). -/
theorem valveUnmet_none (e : Engine) (grants : List ClaimSet) (v : ValveNo) (pos : Nat) :
    e.valveUnmet grants v pos = none ↔ (e.valve v).state ≠ .faulted
      ∧ ∀ g ∈ grants, ∀ q, (v, q) ∈ g.valves → q = pos := by
  have h : grants.any (fun g => g.claimsOther v pos) = false ↔ ∀ g ∈ grants, ∀ q, (v, q) ∈ g.valves → q = pos := by
    simp only [List.any_eq_false, ClaimSet.claimsOther, Bool.not_eq_true, decide_eq_false_iff_not, not_and, not_not]
    exact ⟨fun k g hg q hq => k g hg _ hq rfl, fun k g hg x hx hv => k g hg x.2 (hv ▸ hx)⟩
  unfold Engine.valveUnmet
  cases hs : (e.valve v).state <;> simp [← h]

/-- When a set is grantable (R95). -/
theorem unmet_none (e : Engine) (grants : List ClaimSet) (s : ClaimSet) : e.unmet grants s = none
    ↔ (∀ x ∈ s.roles, e.roleUnmet grants s.mode x.1 x.2 = none) ∧ ∀ x ∈ s.valves, e.valveUnmet grants x.1 x.2 = none := by
  unfold Engine.unmet
  cases h : s.roles.findSome? (fun x => e.roleUnmet grants s.mode x.1 x.2) with
  | some w =>
    simp only [reduceCtorEq, false_iff, not_and]
    intro k
    obtain ⟨x, hx, hw⟩ := List.exists_of_findSome?_eq_some h
    rw [k x hx] at hw; cases hw
  | none =>
    rw [List.findSome?_eq_none_iff] at h
    simp only [List.findSome?_eq_none_iff]
    exact ⟨fun k => ⟨h, k⟩, fun k => k.2⟩

end Sys2Proof.Machine
end

