-- ==== Sys2Proof/Laws/Reports.lean ====
section
/-! SUPPORT. The report queue: what handing a report does to the keys in it (R167, R168), and the queues that come of handing reports one after another. -/

namespace Sys2Proof.Machine

open Sys2Proof

theorem standsIn_iff (q : List Report) (k : ReportKey) : standsIn q k = true ↔ k ∈ q.map Report.key := by
  simp [standsIn, List.any_eq_true, List.mem_map]

/-- An update in place keeps every key. -/
theorem keys_update (q : List Report) (b : ReportBody) :
    (q.map (fun r => if r.key = b.key then ⟨b, bumpCount r.count⟩ else r)).map Report.key = q.map Report.key := by
  induction q with
  | nil => rfl
  | cons r q ih =>
    simp only [List.map_cons, ih, List.cons.injEq, and_true]
    split
    · rename_i h; exact h.symm
    · rfl

/-- The keys after a report is handed: the same ones, or one more at the back (R168). -/
theorem keys_handReport (q : List Report) (b : ReportBody) :
    (handReport q b).map Report.key
      = if standsIn q b.key then q.map Report.key else q.map Report.key ++ [b.key] := by
  unfold handReport
  split
  · rw [keys_update]
  · simp [Report.key]

theorem handReport_distinct {q : List Report} (b : ReportBody) (h : reportsDistinct q) :
    reportsDistinct (handReport q b) := by
  unfold reportsDistinct
  rw [keys_handReport]
  split
  · exact h
  · rename_i hn
    refine List.Nodup.append h (List.nodup_singleton _) ?_
    intro k hk hb
    rw [List.mem_singleton] at hb
    subst hb
    exact hn ((standsIn_iff _ _).2 hk)

/-- A queue that comes of another by reports handed one after another. -/
def Handed (q p : List Report) : Prop := Relation.ReflTransGen (fun a b => ∃ x, b = handReport a x) q p

theorem Handed.refl (q : List Report) : Handed q q := Relation.ReflTransGen.refl

theorem Handed.one (q : List Report) (b : ReportBody) : Handed q (handReport q b) :=
  Relation.ReflTransGen.single ⟨b, rfl⟩

theorem Handed.trans {a b c : List Report} (h : Handed a b) (k : Handed b c) : Handed a c :=
  Relation.ReflTransGen.trans h k

theorem Handed.distinct {q p : List Report} (h : Handed q p) (hq : reportsDistinct q) : reportsDistinct p := by
  induction h with
  | refl => exact hq
  | tail _ hs ih => obtain ⟨x, rfl⟩ := hs; exact handReport_distinct x ih

/-- The keys that can stand in the queue. -/
def allKeys : List ReportKey :=
  allChannels.map .completion ++ allChannels.map .progress ++ Zone.all.map .zone ++ allOutputs.map .output

theorem mem_allKeys (k : ReportKey) : k ∈ allKeys := by
  cases k with
  | completion c => revert c; decide
  | progress c => revert c; decide
  | zone z => cases z <;> decide
  | output o => revert o; decide

/-- A queue without repeated keys holds at most 27 reports (R167). -/
theorem length_le_of_distinct {q : List Report} (h : reportsDistinct q) : q.length ≤ 27 := by
  have hs : (q.map Report.key) ⊆ allKeys := fun k _ => mem_allKeys k
  have := (List.Nodup.subperm h hs).length_le
  simpa [allKeys, allChannels, allOutputs, Zone.all] using this

end Sys2Proof.Machine
end

