-- ==== Sys2Proof/Laws/Closed.lean ====
section
/-! SUPPORT. Relations between an engine and what its operations make of it. A relation that is reflexive and transitive and admits the single updates an operation is made of, admits the operation: one lemma for each shared operation, cited in place of unfolding it. What each such relation says is in the files that follow. -/

namespace Sys2Proof.Machine

open Sys2Proof

/-- A relation that admits what orders, claims and grants are made of. -/
class Base (R : Engine → Engine → Prop) : Prop where
  refl : ∀ e, R e e
  trans : ∀ {a b c}, R a b → R b c → R a c
  putChannel : ∀ e c x, R e (Engine.putChannel e c x)
  putMar : ∀ (e : Engine) (m : Arbiter), R e { e with mar := m }
  putValve : ∀ e v x, R e (Engine.putValve e v x)
  setCircuit : ∀ e m, R e (Engine.setCircuit e m)
  putRegState : ∀ e r, R e (Engine.putRegState e r)
  hand : ∀ e b, R e (Engine.hand e b)
  setOutcome : ∀ e z x, R e (Engine.setOutcome e z x)
  clearPending : ∀ e z, R e (Engine.setPending e z false)

/-- A relation that also admits a zone becoming reserve-pending. -/
class Pends (R : Engine → Engine → Prop) : Prop extends Base R where
  setPending : ∀ e z, R e (Engine.setPending e z true)

/-- A relation that also admits the judgement of zones. -/
class Judges (R : Engine → Engine → Prop) : Prop extends Pends R where
  wakeUp : ∀ e, R e (Engine.wakeUp e)
  putZone : ∀ e z x, R e (Engine.putZone e z x)

/-- A relation that also admits a change of a meter. -/
class Meters (R : Engine → Engine → Prop) : Prop extends Base R where
  putMeter : ∀ e m x, R e (Engine.putMeter e m x)

/-- A relation that also admits a change of the output stage. -/
class Drives (R : Engine → Engine → Prop) : Prop extends Meters R where
  putOst : ∀ (e : Engine) (x : OutputStage), R e { e with ost := x }

/-- The relation, wrapped. -/
structure Via (R : Engine → Engine → Prop) (a b : Engine) : Prop where
  it : R a b

variable {R : Engine → Engine → Prop}

theorem Via.refl [Base R] (e : Engine) : Via R e e := ⟨Base.refl e⟩

theorem Via.trans [Base R] {a b c : Engine} (h : Via R a b) (k : Via R b c) : Via R a c := ⟨Base.trans h.it k.it⟩

theorem Via.foldl [Base R] {α : Type} (f : Engine → α → Engine) (h : ∀ e x, Via R e (f e x)) (l : List α) (e : Engine) :
    Via R e (l.foldl f e) := by
  induction l generalizing e with
  | nil => exact .refl e
  | cons x l ih => exact (h e x).trans (ih (f e x))

/-- A grant scan, or nothing in its place. -/
def Vias (R : Engine → Engine → Prop) (k : Engine → Engine) : Prop := ∀ e, Via R e (k e)

/-! ## Single updates -/

section

variable [Base R]

theorem via_putChannel (e : Engine) (c : ChannelNo) (x : Channel) : Via R e (e.putChannel c x) := ⟨Base.putChannel e c x⟩
theorem via_putOrder (e : Engine) (c : ChannelNo) (o : Option Order) : Via R e (e.putOrder c o) := via_putChannel _ _ _
theorem via_putValve (e : Engine) (v : ValveNo) (x : ValveRec) : Via R e (e.putValve v x) := ⟨Base.putValve e v x⟩
theorem via_setCircuit (e : Engine) (m : Option Circuit) : Via R e (e.setCircuit m) := ⟨Base.setCircuit e m⟩
theorem via_putRegState (e : Engine) (r : RegState) : Via R e (e.putRegState r) := ⟨Base.putRegState e r⟩
theorem via_putMar (e : Engine) (m : Arbiter) : Via R e { e with mar := m } := ⟨Base.putMar e m⟩
theorem via_putClaims (e : Engine) (l : List ClaimSet) : Via R e (e.putClaims l) := via_putMar _ _
theorem via_putGrants (e : Engine) (l : List ClaimSet) : Via R e (e.putGrants l) := via_putMar _ _
theorem via_hand (e : Engine) (b : ReportBody) : Via R e (e.hand b) := ⟨Base.hand e b⟩
theorem via_handZone (e : Engine) (z : Zone) : Via R e (e.handZone z) := via_hand _ _
theorem via_setOutcome (e : Engine) (z : Zone) (x : ReserveOutcome) : Via R e (e.setOutcome z x) := ⟨Base.setOutcome e z x⟩
theorem via_clearPending (e : Engine) (z : Zone) : Via R e (e.setPending z false) := ⟨Base.clearPending e z⟩
theorem via_submitBack (e : Engine) (t : Tables) (c : ChannelNo) (o : Order) : Via R e (e.submitBack t c o) :=
  via_putClaims _ _
theorem via_submitFront (e : Engine) (t : Tables) (c : ChannelNo) (o : Order) : Via R e (e.submitFront t c o) :=
  via_putClaims _ _
theorem via_withdraw (e : Engine) (c : ChannelNo) : Via R e (e.withdraw c) := via_putClaims _ _
theorem via_release (e : Engine) (c : ChannelNo) : Via R e (e.release c) := via_putGrants _ _
theorem via_setReason (e : Engine) (c : ChannelNo) (w : WaitReason) : Via R e (e.setReason c w) := via_putClaims _ _

end

theorem via_putZone [Judges R] (e : Engine) (z : Zone) (x : ZoneRec) : Via R e (e.putZone z x) := ⟨Judges.putZone e z x⟩
theorem via_wakeUp [Judges R] (e : Engine) : Via R e e.wakeUp := ⟨Judges.wakeUp e⟩
theorem via_putMeter [Meters R] (e : Engine) (m : Meter) (x : MeterRec) : Via R e (e.putMeter m x) := ⟨Meters.putMeter e m x⟩
theorem via_putOst [Drives R] (e : Engine) (x : OutputStage) : Via R e { e with ost := x } := ⟨Drives.putOst e x⟩
theorem via_putOutput [Drives R] (e : Engine) (o : OutputNo) (x : OutputRec) : Via R e (e.putOutput o x) := via_putOst _ _

theorem via_mapOrder [Base R] (e : Engine) (c : ChannelNo) (f : Order → Order) : Via R e (e.mapOrder c f) := by
  unfold Engine.mapOrder
  split
  · exact .refl e
  · exact via_putOrder _ _ _

theorem via_prefetch [Base R] (e : Engine) (t : Tables) (c : ChannelNo) : Via R e (e.prefetch t c) := via_mapOrder _ _ _

theorem via_handProgress [Base R] (e : Engine) (c : ChannelNo) (o : Order) : Via R e (e.handProgress c o) := by
  unfold Engine.handProgress
  split
  · exact via_hand _ _
  · exact .refl e

/-! ## Orders -/

theorem via_regulatorTakes [Base R] (e : Engine) (owner : Owner) (g : Ending) : Via R e (e.regulatorTakes owner g) := by
  unfold Engine.regulatorTakes
  split
  · exact via_putRegState _ _
  all_goals exact .refl e

theorem via_noticeReserve [Base R] (e : Engine) (c : ChannelNo) : Via R e (e.noticeReserve c) := by
  unfold Engine.noticeReserve
  split
  · exact via_putRegState _ _
  · exact .refl e

theorem via_closeOrder [Base R] (e : Engine) (c : ChannelNo) (o : Order) (g : Ending) : Via R e (e.closeOrder c o g) := by
  unfold Engine.closeOrder
  split
  · exact ((via_putOrder _ _ _).trans (via_setOutcome _ _ _)).trans (via_handZone _ _)
  all_goals
    split
    · exact (via_hand _ _).trans (via_putChannel _ _ _)
    · exact via_putOrder _ _ _

section

variable {k : Engine → Engine} (hk : Vias R k)
include hk

theorem via_takeOrder [Base R] (e : Engine) (t : Tables) (c : ChannelNo) (o : Order) : Via R e (e.takeOrder t k c o) :=
  (((via_putOrder e c (some o)).trans (via_submitBack _ t c o)).trans (hk _)).trans (via_prefetch _ t c)

theorem via_startReserve [Base R] (e : Engine) (t : Tables) (z : Zone) (r : Reserve) : Via R e (e.startReserve t k z r) := by
  unfold Engine.startReserve
  split
  · exact (via_noticeReserve _ _).trans (via_setOutcome _ _ _)
  · exact ((via_noticeReserve _ _).trans (via_setOutcome _ _ _)).trans (via_takeOrder hk _ _ _ _)

theorem via_serveZone [Base R] (t : Tables) (c : ChannelNo) (e : Engine) (z : Zone) : Via R e (Engine.serveZone t k c e z) := by
  unfold Engine.serveZone
  split
  · exact .refl e
  · split
    · exact ((via_clearPending _ _).trans (via_startReserve hk _ _ _ _)).trans (via_handZone _ _)
    · exact .refl e

theorem via_servePending [Base R] (e : Engine) (t : Tables) (c : ChannelNo) : Via R e (e.servePending t k c) := by
  unfold Engine.servePending
  split
  · exact Via.foldl _ (via_serveZone hk t c) _ _
  all_goals exact .refl e

theorem via_finish [Base R] (e : Engine) (t : Tables) (c : ChannelNo) (o : Order) (g : Ending) : Via R e (e.finish t k c o g) :=
  (via_closeOrder _ _ _ _).trans (via_servePending hk _ _ _)

theorem via_resume [Base R] (e : Engine) (t : Tables) (c : ChannelNo) (o : Order) : Via R e (e.resume t k c o) := by
  unfold Engine.resume
  split
  · exact .refl e
  · split
    · exact (via_regulatorTakes _ _ _).trans (via_finish hk _ _ _ _ _)
    · exact (((via_putOrder _ _ _).trans (via_submitFront _ _ _ _)).trans (hk _)).trans (via_prefetch _ _ _)

theorem via_afterRunDown [Base R] (e : Engine) (t : Tables) (c : ChannelNo) (o : Order) (r : RunDown) :
    Via R e (e.afterRunDown t k c o r) := by
  unfold Engine.afterRunDown
  split
  · exact via_finish hk _ _ _ _ _
  · exact via_resume hk _ _ _ _

theorem via_runDownEnd [Base R] (e : Engine) (t : Tables) (c : ChannelNo) : Via R e (e.runDownEnd t k c) := by
  unfold Engine.runDownEnd
  split
  · exact .refl e
  · split
    · refine Via.trans ?_ (via_afterRunDown hk _ _ _ _ _)
      split
      · exact (via_release _ _).trans (hk _)
      · exact .refl e
    all_goals exact .refl e

theorem via_endIfImmediate [Base R] (e : Engine) (t : Tables) (c : ChannelNo) (p : PathNo) :
    Via R e (e.endIfImmediate t k c p) := by
  unfold Engine.endIfImmediate
  split
  · exact via_runDownEnd hk _ _ _
  · exact .refl e

theorem via_enterEnd [Base R] (e : Engine) (t : Tables) (c : ChannelNo) (o : Order) (g : Ending) (b : Bool) :
    Via R e (e.enterEnd t k c o g b) :=
  ((via_putOrder _ _ _).trans (via_regulatorTakes _ _ _)).trans (via_endIfImmediate hk _ _ _ _)

theorem via_enterTransition [Base R] (e : Engine) (t : Tables) (c : ChannelNo) (o : Order) :
    Via R e (e.enterTransition t k c o) :=
  (via_putOrder _ _ _).trans (via_endIfImmediate hk _ _ _ _)

theorem via_endWaiting [Base R] (e : Engine) (t : Tables) (c : ChannelNo) (o : Order) (g : Ending) :
    Via R e (e.endWaiting t k c o g) :=
  ((((via_withdraw _ _).trans (via_regulatorTakes _ _ _)).trans (via_closeOrder _ _ _ _)).trans (hk _)).trans
    (via_servePending hk _ _ _)

theorem via_imposeEnd [Base R] (e : Engine) (t : Tables) (c : ChannelNo) (g : Ending) : Via R e (e.imposeEnd t k c g) := by
  unfold Engine.imposeEnd
  split
  · exact .refl e
  · split
    · exact via_endWaiting hk _ _ _ _ _
    · exact via_enterEnd hk _ _ _ _ _ _
    · exact via_enterEnd hk _ _ _ _ _ _
    · split
      · exact .refl e
      · exact (via_putOrder _ _ _).trans (via_regulatorTakes _ _ _)

end

theorem vias_id [Base R] : Vias R id := fun e => .refl e

theorem via_revoke [Base R] (e : Engine) (t : Tables) (c : ChannelNo) : Via R e (e.revoke t c) := by
  unfold Engine.revoke
  refine Via.trans (via_release e c) ?_
  split
  · exact .refl _
  · split
    · exact .refl _
    · exact (via_putOrder _ _ _).trans (via_submitFront _ _ _ _)
    · exact (via_putOrder _ _ _).trans (via_submitFront _ _ _ _)
    · exact via_afterRunDown vias_id _ _ _ _ _

/-! ## The arbiter -/

theorem via_commandValves [Base R] (e : Engine) (t : Tables) (b : List ClaimSet) (s : ClaimSet) :
    Via R e (e.commandValves t b s) := by
  refine Via.foldl _ (fun e x => ?_) _ _
  split
  · exact via_putValve _ _ _
  · exact .refl e

theorem via_grant [Base R] (e : Engine) (t : Tables) (s : ClaimSet) : Via R e (e.grant t s) :=
  (((via_putMar e _).trans (via_setCircuit _ _)).trans (via_mapOrder _ _ _)).trans (via_commandValves _ _ _ _)

theorem via_beginModeChange [Base R] (e : Engine) (t : Tables) (s : ClaimSet) : Via R e (e.beginModeChange t s) := by
  unfold Engine.beginModeChange
  split
  · exact .refl e
  · exact (via_putMar _ _).trans (via_setReason _ _ _)

theorem via_preempt [Base R] (t : Tables) (s : ClaimSet) (n : Nat) (e : Engine) : Via R e (Engine.preempt t s n e) := by
  induction n generalizing e with
  | zero => exact .refl e
  | succ n ih =>
    unfold Engine.preempt
    split
    · exact .refl e
    · split
      · exact .refl e
      · exact (via_revoke _ _ _).trans (ih _)

theorem via_settle [Base R] (e : Engine) (t : Tables) (s : ClaimSet) : Via R e (e.settle t s) := by
  unfold Engine.settle
  split
  · exact via_grant _ _ _
  · split
    · exact via_beginModeChange _ _ _
    · exact via_setReason _ _ _

theorem via_judgeSet [Base R] (e : Engine) (t : Tables) (l : List ClaimSet) (s : ClaimSet) : Via R e (e.judgeSet t l s) := by
  unfold Engine.judgeSet
  split
  · exact via_setReason _ _ _
  · split
    · exact (via_preempt _ _ _ _).trans (via_settle _ _ _)
    · exact via_settle _ _ _

theorem via_walk [Base R] (t : Tables) (n : Nat) (j : List ChannelNo) (l : List ClaimSet) (e : Engine) :
    Via R e (Engine.walk t n j l e) := by
  induction n generalizing j l e with
  | zero => exact .refl e
  | succ n ih =>
    unfold Engine.walk
    split
    · exact .refl e
    · exact (via_judgeSet _ _ _ _).trans (ih _ _ _)

/-- The grant scan is a flow. -/
theorem via_grantScan [Base R] (t : Tables) : Vias R (Engine.grantScan t) := fun e => via_walk _ _ _ _ e

theorem via_revokeHolders [Base R] (e : Engine) (t : Tables) (r : Role) : Via R e (e.revokeHolders t r) :=
  (Via.foldl _ (fun e (g : ClaimSet) => via_revoke e t g.channel) _ e).trans (via_grantScan t _)

theorem via_equalizeEnd [Base R] (e : Engine) (t : Tables) : Via R e (e.equalizeEnd t) := by
  unfold Engine.equalizeEnd
  split
  · exact .refl e
  · exact ((via_putMar _ _).trans (via_setCircuit _ _)).trans (via_grantScan t _)

theorem via_equalizeFall [Base R] (e : Engine) (n : Nat) : Via R e (e.equalizeFall n) := by
  unfold Engine.equalizeFall
  split
  · exact .refl e
  · exact via_putMar _ _

/-! ## Channels -/

section

variable {k : Engine → Engine} (hk : Vias R k)
include hk

theorem via_channelReport [Base R] (t : Tables) (m : Meter) (x : MeterReport) (e : Engine) (c : ChannelNo) :
    Via R e (Engine.channelReport t k m x e c) := by
  unfold Engine.channelReport
  split
  · exact .refl e
  · split
    · split
      · exact via_enterEnd hk _ _ _ _ _ _
      · exact via_putOrder _ _ _
      · exact via_putOrder _ _ _
      · exact via_putOrder _ _ _
      · exact via_putOrder _ _ _
      · exact via_putOrder _ _ _
      · exact .refl e
    · exact .refl e

theorem via_meterReport [Base R] (e : Engine) (t : Tables) (m : Meter) (x : MeterReport) : Via R e (e.meterReport t k m x) :=
  Via.foldl _ (via_channelReport hk t m x) _ _

theorem via_enterRunning [Base R] (e : Engine) (t : Tables) (c : ChannelNo) (o : Order) : Via R e (e.enterRunning t k c o) := by
  unfold Engine.enterRunning
  dsimp only
  split
  · exact ((via_handProgress _ _ _).trans (via_putOrder _ _ _)).trans (via_enterEnd hk _ _ _ _ _ _)
  all_goals exact (via_handProgress _ _ _).trans (via_putOrder _ _ _)

omit hk in
theorem via_chainOn [Base R] (t : Tables) (c : ChannelNo) (n : Nat) (x : SegmentEnd) (f : Forming) (o : Order) (e : Engine) :
    Via R e (Engine.chainOn t c n x f o e).1 := by
  induction n generalizing x f o e with
  | zero => exact .refl e
  | succ n ih =>
    unfold Engine.chainOn
    cases x with
    | short cause =>
      dsimp only
      split
      · exact ih _ _ _ _
      · exact .refl e
    | complete =>
      dsimp only
      split
      · generalize e.withSuccessor t _ = o1
        repeat' split
        all_goals first
          | exact .refl _
          | exact via_handProgress _ _ _
          | exact (via_handProgress _ _ _).trans (ih _ _ _ _)
      · exact .refl e

theorem via_takeCourse [Base R] (e : Engine) (t : Tables) (c : ChannelNo) (m : MeterRec) (x : Course) :
    Via R e (e.takeCourse t k c m x) := by
  unfold Engine.takeCourse
  split
  · exact via_putOrder _ _ _
  · exact via_putOrder _ _ _
  · exact (via_putOrder _ _ _).trans (via_enterEnd hk _ _ _ _ _ _)
  · exact (via_putOrder _ _ _).trans (via_enterTransition hk _ _ _ _)

theorem via_runningWork [Base R] (e : Engine) (t : Tables) (f : ScanFigures) (c : ChannelNo) (o : Order) :
    Via R e (e.runningWork t k f c o) := by
  unfold Engine.runningWork
  dsimp only
  split
  · exact via_takeCourse hk _ _ _ _ _
  · split
    · exact via_putOrder _ _ _
    · exact (via_chainOn _ _ _ _ _ _ _).trans (via_takeCourse hk _ _ _ _ _)

theorem via_waitingWork [Base R] (e : Engine) (t : Tables) (due : DueMode) (c : ChannelNo) (o : Order) :
    Via R e (e.waitingWork t k due c o) := by
  unfold Engine.waitingWork
  dsimp only
  split
  · exact (via_putOrder _ _ _).trans (via_endWaiting hk _ _ _ _ _)
  · exact via_putOrder _ _ _

theorem via_settingWork [Base R] (e : Engine) (t : Tables) (c : ChannelNo) (o : Order) : Via R e (e.settingWork t k c o) := by
  unfold Engine.settingWork
  dsimp only
  split
  · exact (via_putOrder _ _ _).trans (via_enterRunning hk _ _ _ _)
  · exact via_putOrder _ _ _

theorem via_endingWork [Base R] (e : Engine) (t : Tables) (f : ScanFigures) (c : ChannelNo) (o : Order) (r : RunDown) :
    Via R e (e.endingWork t k f c o r) := by
  unfold Engine.endingWork
  dsimp only
  split
  · exact (via_putOrder _ _ _).trans (via_runDownEnd hk _ _ _)
  · exact via_putOrder _ _ _

theorem via_channelWork [Base R] (e : Engine) (t : Tables) (f : ScanFigures) (c : ChannelNo) (b : Option Order) :
    Via R e (e.channelWork t k f c b) := by
  unfold Engine.channelWork
  split
  · split
    · exact .refl e
    · split
      · exact via_waitingWork hk _ _ _ _ _
      · exact via_settingWork hk _ _ _ _
      · exact via_runningWork hk _ _ _ _ _
      · exact via_endingWork hk _ _ _ _ _ _
      · exact via_putOrder _ _ _
  · exact .refl e

theorem via_timeLimitReached [Base R] (e : Engine) (t : Tables) (c : ChannelNo) : Via R e (e.timeLimitReached t k c) := by
  unfold Engine.timeLimitReached
  split
  · exact .refl e
  · split
    · exact (via_chainOn _ _ _ _ _ _ _).trans (via_takeCourse hk _ _ _ _ _)
    · exact .refl e

theorem via_waitLimitReached [Base R] (e : Engine) (t : Tables) (c : ChannelNo) : Via R e (e.waitLimitReached t k c) := by
  unfold Engine.waitLimitReached
  split
  · exact .refl e
  · split
    · exact via_endWaiting hk _ _ _ _ _
    · exact .refl e

theorem via_runDownReached [Base R] (e : Engine) (t : Tables) (c : ChannelNo) : Via R e (e.runDownReached t k c) := by
  unfold Engine.runDownReached
  split
  · exact .refl e
  · split
    · split
      · exact via_runDownEnd hk _ _ _
      · exact .refl e
    all_goals exact .refl e

end

theorem via_leadEnds [Base R] (e : Engine) (t : Tables) (c : ChannelNo) : Via R e (e.leadEnds t c) := by
  unfold Engine.leadEnds
  split
  · exact .refl e
  · split
    · exact via_putOrder _ _ _
    · exact .refl e

/-! ## Zones and meters -/

theorem via_verdicts [Judges R] (e : Engine) (t : Tables) (r : Bank Reading 6) : Via R e (e.verdicts t r) :=
  Via.foldl _ (fun _ _ => via_putZone _ _ _) _ _

theorem via_becomePending [Pends R] (e : Engine) (z : Zone) : Via R e (e.becomePending z) :=
  Via.trans ⟨Pends.setPending e z⟩ (via_setOutcome _ _ _)

theorem via_dropPending [Base R] (e : Engine) (z : Zone) : Via R e (e.dropPending z) := by
  unfold Engine.dropPending
  split
  · exact (via_clearPending _ _).trans (via_setOutcome _ _ _)
  · exact .refl e

theorem via_returnNormal [Judges R] (e : Engine) (z : Zone) : Via R e (e.returnNormal z) :=
  ((via_putZone _ _ _).trans (via_dropPending _ _)).trans (via_handZone _ _)

theorem via_trigger [Judges R] (e : Engine) (z : Zone) (st : ZoneState) (r : Reading) : Via R e (e.trigger z st r) :=
  via_putZone _ _ _

section

variable {k : Engine → Engine} (hk : Vias R k)
include hk

theorem via_endOffenders [Base R] (e : Engine) (t : Tables) (z : Zone) (st : ZoneState) : Via R e (e.endOffenders t k z st) := by
  refine Via.foldl _ (fun e c => ?_) _ _
  unfold Engine.endOffender
  split
  · exact .refl e
  · split
    · exact via_imposeEnd hk _ _ _ _
    · exact .refl e

theorem via_startOrPend [Pends R] (e : Engine) (t : Tables) (z : Zone) (r : Reserve) : Via R e (e.startOrPend t k z r) := by
  unfold Engine.startOrPend
  split
  · exact via_startReserve hk _ _ _ _
  · exact via_becomePending _ _

theorem via_reserveDue [Pends R] (e : Engine) (t : Tables) (z : Zone) (r : Reserve) : Via R e (e.reserveDue t k z r) := by
  unfold Engine.reserveDue
  split
  · exact via_setOutcome _ _ _
  · split
    · exact via_becomePending _ _
    · exact via_becomePending _ _
    · exact via_becomePending _ _
    · split
      · exact via_startReserve hk _ _ _ _
      · split
        · exact via_becomePending _ _
        · exact (via_imposeEnd hk _ _ _ _).trans (via_startOrPend hk _ _ _ _)
        · exact (via_imposeEnd hk _ _ _ _).trans (via_startOrPend hk _ _ _ _)

theorem via_enterTrip [Judges R] (e : Engine) (t : Tables) (z : Zone) (st : ZoneState) (r : Reading) :
    Via R e (e.enterTrip t k z st r) := by
  unfold Engine.enterTrip
  dsimp only
  have h1 : Via R e ((e.wakeUp.trigger z st r).endOffenders t k z st) :=
    ((via_wakeUp e).trans (via_trigger _ _ _ _)).trans (via_endOffenders hk _ _ _ _)
  refine Via.trans ?_ (via_handZone _ _)
  split
  · exact h1
  · split
    · exact h1.trans (via_reserveDue hk _ _ _ _)
    · exact h1

theorem via_judgeZones [Judges R] (e : Engine) (t : Tables) (r : Bank Reading 6) : Via R e (e.judgeZones t k r) := by
  refine Via.foldl _ (fun e z => ?_) _ _
  unfold Engine.judgeZone
  dsimp only
  split
  · exact .refl e
  · split
    · exact via_returnNormal _ _
    · exact via_enterTrip hk _ _ _ _ _

theorem via_rejudgePending [Pends R] (e : Engine) (t : Tables) (z : Zone) : Via R e (e.rejudgePending t k z) := by
  unfold Engine.rejudgePending
  split
  · split
    · exact (via_dropPending _ _).trans (via_handZone _ _)
    · dsimp only
      split
      · exact (via_clearPending _ _).trans (via_reserveDue hk _ _ _ _)
      · exact ((via_clearPending _ _).trans (via_reserveDue hk _ _ _ _)).trans (via_handZone _ _)
  · exact .refl e

theorem via_judgeMeter [Meters R] (t : Tables) (i : Meter → Option MeterInputs) (x : Engine × Bank (Option Int) 4) (m : Meter) :
    Via R x.1 (Engine.judgeMeter t k i x m).1 := by
  rw [Engine.judgeMeter_fst]
  exact (via_putMeter _ _ _).trans (via_meterReport hk _ _ _ _)

theorem via_judgeMeters [Meters R] (e : Engine) (t : Tables) (i : Meter → Option MeterInputs) :
    Via R e (e.judgeMeters t k i).1 := by
  have h : ∀ (l : List Meter) (x : Engine × Bank (Option Int) 4),
      Via R x.1 (l.foldl (Engine.judgeMeter t k i) x).1 := by
    intro l
    induction l with
    | nil => exact fun x => .refl _
    | cons m l ih =>
      intro x
      rw [List.foldl_cons]
      exact (via_judgeMeter hk t i x m).trans (ih _)
  exact h Meter.all (e, Vector.replicate 4 none)

theorem via_holdExpires [Meters R] (e : Engine) (t : Tables) (m : Meter) : Via R e (e.holdExpires t k m) := by
  unfold Engine.holdExpires
  split
  · exact (via_putMeter _ _ _).trans (via_meterReport hk _ _ _ _)
  · exact .refl e

theorem via_meterHandOver [Meters R] (e : Engine) (t : Tables) (r : Role) : Via R e (e.meterHandOver t k r) := by
  unfold Engine.meterHandOver
  split
  · exact .refl e
  · exact (via_putMeter _ _ _).trans (via_meterReport hk _ _ _ _)

end

theorem via_meterHandOverEnded [Meters R] (e : Engine) (r : Role) : Via R e (e.meterHandOverEnded r) := by
  unfold Engine.meterHandOverEnded
  split
  · exact .refl e
  · exact via_putMeter _ _ _

/-! ## The output stage -/

theorem via_readFeedback [Drives R] (e : Engine) (s : Straps) (f : Feedback) : Via R e (e.readFeedback s f) := by
  refine Via.trans (Via.foldl _ (fun e o => ?_) _ _) (Via.foldl _ (fun _ _ => via_putValve _ _ _) _ _)
  split
  · exact via_putOutput _ _ _
  · exact .refl e

theorem via_endHandOver [Drives R] (e : Engine) : Via R e e.endHandOver := by
  unfold Engine.endHandOver
  split
  · exact .refl e
  · exact (via_putOst _ _).trans (via_meterHandOverEnded _ _)

theorem via_handOverFault [Drives R] (e : Engine) (o : OutputNo) : Via R e (e.handOverFault o) := by
  unfold Engine.handOverFault
  split
  · exact .refl e
  · split
    · exact via_endHandOver _
    · split
      · exact via_putOst _ _
      · exact .refl e

theorem via_handOverStep [Drives R] (e : Engine) : Via R e e.handOverStep := by
  unfold Engine.handOverStep
  split
  · exact .refl e
  · rename_i h _
    have h1 : Via R e { e with ost := { e.ost with handOver := some { h with timer := h.timer - 1 } } } := via_putOst e _
    dsimp only
    refine Via.trans ?_ (via_putOutput _ _ _)
    split
    · exact h1
    · exact h1.trans (via_putOutput _ _ _)

theorem via_outputFault [Drives R] (e : Engine) (t : Tables) (o : OutputNo) (k : OutputFault) : Via R e (e.outputFault t o k) := by
  unfold Engine.outputFault
  dsimp only
  have h1 : Via R e ((e.putOutput o ((e.output o).faultedWith k)).handOverFault o) :=
    (via_putOutput _ _ _).trans (via_handOverFault _ _)
  refine Via.trans ?_ (via_hand _ _)
  split
  · exact h1
  · exact h1.trans (via_revokeHolders _ _ _)

theorem via_testFails [Drives R] (e : Engine) (o : OutputNo) (k : OutputFault) : Via R e (e.testFails o k) :=
  (via_putOutput _ _ _).trans (via_hand _ _)

theorem via_testPasses [Drives R] (e : Engine) (t : Tables) (o : OutputNo) : Via R e (e.testPasses t o) := by
  unfold Engine.testPasses
  dsimp only
  have h1 : Via R e ((e.putOutput o (e.output o).passed).grantScan t) :=
    (via_putOutput _ _ _).trans (via_grantScan t _)
  split
  · exact h1.trans (via_hand _ _)
  · exact h1

theorem via_overcurrents [Drives R] (e : Engine) (t : Tables) : Via R e (e.overcurrents t) := by
  refine Via.foldl _ (fun e o => ?_) _ _
  unfold Engine.judgeOvercurrent
  dsimp only
  split
  · split
    · exact via_outputFault _ _ _ _
    · exact via_testFails _ _ _
    · exact .refl e
  · exact .refl e

theorem via_openLoadReached [Drives R] (e : Engine) (t : Tables) (o : OutputNo) : Via R e (e.openLoadReached t o) := by
  unfold Engine.openLoadReached
  split
  · exact via_outputFault _ _ _ _
  · exact .refl e

theorem via_stallReached [Drives R] (e : Engine) (t : Tables) (o : OutputNo) : Via R e (e.stallReached t o) := by
  unfold Engine.stallReached
  split
  · exact via_outputFault _ _ _ _
  · exact .refl e

theorem via_testEnds [Drives R] (e : Engine) (t : Tables) (o : OutputNo) : Via R e (e.testEnds t o) := by
  unfold Engine.testEnds
  dsimp only
  split
  · split
    · exact via_testFails _ _ _
    · split
      · exact via_testFails _ _ _
      · exact via_testPasses _ _ _
  · exact .refl e

theorem via_handOverEnds [Drives R] (e : Engine) : Via R e e.handOverEnds := by
  unfold Engine.handOverEnds
  split
  · exact via_endHandOver _
  · exact .refl e

theorem via_driveOutputs [Drives R] (e : Engine) (s : Straps) : Via R e (e.driveOutputs s) := by
  refine Via.trans (Via.foldl _ (fun e o => ?_) _ _) (via_handOverStep _)
  split
  · unfold Engine.driveOutput
    dsimp only
    split
    · exact via_putOutput _ _ _
    · exact via_putOutput _ _ _
    · split
      · exact via_putOutput _ _ _
      · exact via_putOutput _ _ _
  · exact .refl e

section

variable {k : Engine → Engine} (hk : Vias R k)
include hk

theorem via_valveArrives [Base R] (e : Engine) (t : Tables) (v : ValveNo) : Via R e (e.valveArrives t k v) := by
  unfold Engine.valveArrives
  dsimp only
  split
  · refine Via.trans (via_putValve e v _) (Via.foldl _ (fun e c => ?_) _ _)
    unfold Engine.enterIfStanding
    split
    · exact .refl e
    · split
      · exact via_enterRunning hk _ _ _ _
      · exact .refl e
  · exact .refl e

theorem via_valveFaults [Base R] (e : Engine) (t : Tables) (v : ValveNo) (f : ValveFault) : Via R e (e.valveFaults t k v f) := by
  refine Via.trans (via_putValve e v _) (Via.foldl _ (fun e c => ?_) _ _)
  unfold Engine.endIfClaims
  split
  · exact .refl e
  · split
    · exact via_imposeEnd hk _ _ _ _
    · exact .refl e

theorem via_valveTimesOut [Base R] (e : Engine) (t : Tables) (v : ValveNo) : Via R e (e.valveTimesOut t k v) := by
  unfold Engine.valveTimesOut
  split
  · exact via_valveFaults hk _ _ _ _
  · exact .refl e

theorem via_valveLosesFeedback [Base R] (e : Engine) (t : Tables) (v : ValveNo) : Via R e (e.valveLosesFeedback t k v) := by
  unfold Engine.valveLosesFeedback
  split
  · exact via_valveFaults hk _ _ _ _
  · exact .refl e

end

theorem via_valveDrifts [Base R] (e : Engine) (t : Tables) (v : ValveNo) : Via R e (e.valveDrifts t v) := by
  unfold Engine.valveDrifts
  dsimp only
  split
  · exact via_putValve _ _ _
  · exact .refl e

theorem via_valveTestTurns [Base R] (e : Engine) (t : Tables) (v : ValveNo) : Via R e (e.valveTestTurns t v) := by
  unfold Engine.valveTestTurns
  dsimp only
  split
  · exact .refl e
  · split
    · exact via_putValve _ _ _
    · exact .refl e

theorem via_valveTestPasses [Base R] (e : Engine) (t : Tables) (v : ValveNo) : Via R e (e.valveTestPasses t v) := by
  unfold Engine.valveTestPasses
  dsimp only
  split
  · exact .refl e
  · split
    · exact (via_putValve _ _ _).trans (via_grantScan t _)
    · exact .refl e

theorem via_exchangeAtOnce [Drives R] (e : Engine) (t : Tables) (r : Role) (x : OutputNo) : Via R e (e.exchangeAtOnce t r x) :=
  (((via_putOst e _).trans (via_putOutput _ _ _)).trans (via_putOutput _ _ _)).trans (via_grantScan t _)

theorem via_exchangeHeld [Drives R] (e : Engine) (t : Tables) (r : Role) (x : OutputNo) : Via R e (e.exchangeHeld t r x) :=
  (((((via_putOst e _).trans (via_putOutput _ _ _)).trans (via_putOutput _ _ _)).trans (via_putOst _ _)).trans
    (via_meterHandOver (via_grantScan t) _ _ _)).trans (via_grantScan t _)

theorem via_beginOutputTest [Drives R] (e : Engine) (o : OutputNo) : Via R e (e.beginOutputTest o) :=
  (via_putOutput _ _ _).trans (via_setCircuit _ _)

theorem via_beginValveTest [Base R] (e : Engine) (t : Tables) (v : ValveNo) : Via R e (e.beginValveTest t v) := via_putValve _ _ _

/-! ## The regulator -/

section

variable {k : Engine → Engine} (hk : Vias R k)
include hk

theorem via_comfortStart [Base R] (e : Engine) (t : Tables) (d : Direction) (n : PathNo) (m : Int) :
    Via R e (e.comfortStart t k d n m) := by
  unfold Engine.comfortStart
  dsimp only
  split
  · exact (via_regulatorTakes _ _ _).trans (via_closeOrder _ _ _ _)
  · exact (via_putRegState _ _).trans (via_takeOrder hk _ _ _ _)

omit hk in
theorem via_renewRate [Base R] (e : Engine) (r : Nat) : Via R e (e.renewRate r) := by
  unfold Engine.renewRate
  split
  · exact .refl e
  · exact via_putOrder _ _ _

theorem via_comfortEnd [Base R] (e : Engine) (t : Tables) : Via R e (e.comfortEnd t k) := by
  unfold Engine.comfortEnd
  dsimp only
  split
  · exact via_putRegState _ _
  · exact (via_putRegState _ _).trans (via_imposeEnd hk _ _ _ _)

theorem via_redirectWaiting [Base R] (e : Engine) (t : Tables) (o : Order) (x : Copy) : Via R e (e.redirectWaiting t k o x) :=
  (((via_putOrder _ _ _).trans (via_withdraw _ _)).trans (via_submitFront _ _ _ _)).trans (hk _)

theorem via_redirect [Base R] (e : Engine) (t : Tables) (d : Direction) (n : PathNo) (m : Int) :
    Via R e (e.redirect t k d n m) := by
  unfold Engine.redirect
  split
  · exact via_putRegState _ _
  · dsimp only
    split
    · exact via_putRegState _ _
    · split
      · exact via_imposeEnd hk _ _ _ _
      · exact (via_putOrder _ _ _).trans (via_putRegState _ _)
    · split
      · exact via_imposeEnd hk _ _ _ _
      · exact (via_putRegState _ _).trans (via_redirectWaiting hk _ _ _ _)
    · split
      · exact via_imposeEnd hk _ _ _ _
      · exact (via_putRegState _ _).trans (via_enterTransition hk _ _ _ _)
    · split
      · exact via_imposeEnd hk _ _ _ _
      · exact (via_putRegState _ _).trans (via_enterTransition hk _ _ _ _)

theorem via_judgeCab [Base R] (e : Engine) (t : Tables) (d : Direction) (m : Int) : Via R e (e.judgeCab t k d m) := by
  unfold Engine.judgeCab
  dsimp only
  split
  · exact .refl e
  · exact via_comfortEnd hk _ _
  · exact via_comfortEnd hk _ _
  · exact .refl e
  · split
    · exact via_comfortStart hk _ _ _ _ _
    · exact .refl e
  · split
    · exact via_renewRate _ _
    · exact via_redirect hk _ _ _ _ _

theorem via_comfortJudge [Base R] (e : Engine) (t : Tables) (b : Bool) (m : Option Int) : Via R e (e.comfortJudge t k b m) := by
  unfold Engine.comfortJudge
  split
  · exact via_judgeCab hk _ _ _ _
  · split
    · exact via_putRegState _ _
    · exact .refl e
  · exact .refl e

theorem via_comfortDisable [Base R] (e : Engine) (t : Tables) : Via R e (e.comfortDisable t k) := by
  unfold Engine.comfortDisable
  dsimp only
  split
  · exact via_putRegState _ _
  · exact (via_putRegState _ _).trans (via_imposeEnd hk _ _ _ _)

end

/-! ## The scan end -/

theorem via_whenReady [Base R] (f : Engine → Engine) (h : Vias R f) (e : Engine) : Via R e (whenReady f e) := by
  unfold whenReady
  split
  · exact h e
  all_goals exact .refl e

theorem via_whenWithin [Base R] (d : DueMode) (f : Engine → Engine) (h : Vias R f) (e : Engine) : Via R e (whenWithin d f e) := by
  unfold whenWithin
  split
  · exact h e
  · exact .refl e

theorem via_channelsWork [Base R] (e : Engine) (t : Tables) (f : ScanFigures) (b : Bank (Option Order) 6) (cs : List ChannelNo) :
    Via R e (e.channelsWork t f b cs) :=
  Via.foldl _ (fun _ _ => via_channelWork (via_grantScan t) _ _ _ _ _) _ _

theorem via_judgeOutputs [Drives R] (t : Tables) (d : DueMode) : Vias R (Engine.judgeOutputs t d) := by
  intro e
  refine Via.trans (via_overcurrents e t) (via_whenWithin d _ (fun e => ?_) _)
  exact Via.foldl _ (fun _ _ => ((via_openLoadReached _ _ _).trans (via_stallReached _ _ _)).trans (via_testEnds _ _ _)) _ _

theorem via_valvesDue [Base R] (t : Tables) : Vias R (Engine.valvesDue t) := fun _ =>
  Via.foldl _ (fun _ _ =>
    ((((via_valveTestPasses _ _ _).trans (via_valveTestTurns _ _ _)).trans
      (via_valveTimesOut (via_grantScan t) _ _ _)).trans (via_valveLosesFeedback (via_grantScan t) _ _ _)).trans
      (via_valveDrifts _ _ _)) _ _

theorem via_equalizeIfOver [Base R] (t : Tables) : Vias R (Engine.equalizeIfOver t) := by
  intro e
  unfold Engine.equalizeIfOver
  split
  · exact via_equalizeEnd _ _
  · exact .refl e

theorem via_parkedClock [Base R] (e : Engine) (t : Tables) (n : Nat) : Via R e (e.parkedClock t n) :=
  (via_equalizeFall e n).trans (via_equalizeIfOver t _)

theorem via_judgeWork [Judges R] (e : Engine) (t : Tables) (x : ScanInput) (f : ScanFigures) (b : Bank (Option Order) 6) :
    Via R e (e.judgeWork t x f b) := by
  unfold Engine.judgeWork
  dsimp only
  have h1 : Via R e ((e.channelsWork t f b x.order.channelsFirst).judgeZones t (Engine.grantScan t) x.readings) :=
    (via_channelsWork _ _ _ _ _).trans (via_judgeZones (via_grantScan t) _ _ _)
  split
  · exact (h1.trans (via_comfortJudge (via_grantScan t) _ _ _ _)).trans (via_channelsWork _ _ _ _ _)
  · exact (h1.trans (via_channelsWork _ _ _ _ _)).trans (via_comfortJudge (via_grantScan t) _ _ _ _)

theorem via_superviseZones [Judges R] (e : Engine) (t : Tables) (r : Bank Reading 6) : Via R e (e.superviseZones t r) :=
  (via_verdicts _ _ _).trans (via_judgeZones (via_grantScan t) _ _ _)

theorem via_allHoldsExpire [Meters R] (t : Tables) : Vias R (Engine.allHoldsExpire t) := fun _ =>
  Via.foldl _ (fun _ _ => via_holdExpires (via_grantScan t) _ _ _) _ _

theorem via_allValvesArrive [Base R] (t : Tables) : Vias R (Engine.allValvesArrive t) := fun _ =>
  Via.foldl _ (fun _ _ => via_valveArrives (via_grantScan t) _ _ _) _ _

theorem via_fullScanEnd [Judges R] [Drives R] (e : Engine) (t : Tables) (x : ScanInput) : Via R e (e.fullScanEnd t x) := by
  unfold Engine.fullScanEnd
  dsimp only
  have h2 : Via R e (((e.verdicts t x.readings).equalizeFall 1).judgeMeters t (Engine.grantScan t)
      (fun m => Bank.nth x.meters m.idx)).1 :=
    ((via_verdicts _ _ _).trans (via_equalizeFall _ _)).trans (via_judgeMeters (via_grantScan t) _ _ _)
  have h3 := h2.trans (via_whenReady
    (fun e => whenWithin x.order.due (Engine.allValvesArrive t) (e.readFeedback t.straps x.feedback))
    (fun _ => (via_readFeedback _ _ _).trans (via_whenWithin _ _ (via_allValvesArrive t) _)) _)
  have hj : Vias R (whenReady (Engine.judgeOutputs t x.order.due)) := via_whenReady _ (via_judgeOutputs t _)
  have hd : Vias R (whenReady (fun e => e.driveOutputs t.straps)) :=
    via_whenReady _ (fun _ => via_driveOutputs _ _)
  have hv : Vias R (whenReady (whenWithin x.order.due (fun e => (e.handOverEnds).valvesDue t))) :=
    via_whenReady _ (via_whenWithin _ _ (fun _ => (via_handOverEnds _).trans (via_valvesDue t _)))
  have hh : Vias R (whenWithin x.order.due (Engine.allHoldsExpire t)) := via_whenWithin _ _ (via_allHoldsExpire t)
  have hq : Vias R (whenWithin x.order.due (Engine.equalizeIfOver t)) := via_whenWithin _ _ (via_equalizeIfOver t)
  cases x.order.faultsFirst with
  | true =>
    exact (((((h3.trans (hj _)).trans (via_judgeWork _ _ _ _ _)).trans (hh _)).trans (hd _)).trans (hv _)).trans (hq _)
  | false =>
    exact (((((h3.trans (via_judgeWork _ _ _ _ _)).trans (hh _)).trans (hj _)).trans (hd _)).trans (hv _)).trans (hq _)

end Sys2Proof.Machine
end

