-- ==== Sys2Proof/Laws/Flow.lean ====
section
/-! SUPPORT. Three relations that the engine's operations keep: what every operation keeps (Flow), what a grant scan and an order's course leave alone (Grants), and the zone states that nothing but the judgement of zones changes (SameZones). -/

namespace Sys2Proof.Machine

open Sys2Proof

/-! ## What every operation keeps -/

/-- Whatever the engine does: the part state stays or a PARKED part wakes, the cabin target and the regulator's settings stay, and the report queue only has reports handed to it. -/
structure Flow (a b : Engine) : Prop where
  part : b.part = a.part ∨ (a.part = .parked ∧ b.part = .waking)
  target : b.crg.target = a.crg.target
  settings : b.crg.settings = a.crg.settings
  reports : Handed a.reports b.reports

theorem Flow.same {a b : Engine} (h1 : b.part = a.part) (h2 : b.crg.target = a.crg.target)
    (h3 : b.crg.settings = a.crg.settings) (h4 : b.reports = a.reports) : Flow a b :=
  ⟨.inl h1, h2, h3, h4 ▸ .refl _⟩

theorem Flow.trans {a b c : Engine} (h : Flow a b) (k : Flow b c) : Flow a c where
  part := by
    rcases h.part with h1 | ⟨h1, h2⟩ <;> rcases k.part with k1 | ⟨k1, k2⟩
    · exact .inl (k1.trans h1)
    · exact .inr ⟨h1 ▸ k1, k2⟩
    · exact .inr ⟨h1, k1.trans h2⟩
    · rw [h2] at k1; cases k1
  target := k.target.trans h.target
  settings := k.settings.trans h.settings
  reports := h.reports.trans k.reports

theorem Flow.ready {a b : Engine} (h : Flow a b) (ha : a.part = .ready) : b.part = .ready := by
  rcases h.part with h | ⟨h, _⟩
  · rw [h, ha]
  · rw [ha] at h; cases h

theorem flow_judges : Judges Flow where
  refl _ := .same rfl rfl rfl rfl
  trans := .trans
  putChannel _ _ _ := .same rfl rfl rfl rfl
  putMar _ _ := .same rfl rfl rfl rfl
  putValve _ _ _ := .same rfl rfl rfl rfl
  setCircuit _ _ := .same rfl rfl rfl rfl
  putRegState _ _ := .same rfl rfl rfl rfl
  hand _ _ := ⟨.inl rfl, rfl, rfl, .one _ _⟩
  setOutcome _ _ _ := .same rfl rfl rfl rfl
  clearPending _ _ := .same rfl rfl rfl rfl
  setPending _ _ := .same rfl rfl rfl rfl
  putZone _ _ _ := .same rfl rfl rfl rfl
  wakeUp e := by
    unfold Engine.wakeUp
    split
    · rename_i h; exact ⟨.inr ⟨h, rfl⟩, rfl, rfl, .refl _⟩
    all_goals exact .same rfl rfl rfl rfl

theorem flow_drives : Drives Flow where
  toBase := flow_judges.toBase
  putMeter _ _ _ := .same rfl rfl rfl rfl
  putOst _ _ := .same rfl rfl rfl rfl

theorem flow_grantScan (t : Tables) (e : Engine) : Flow e (Engine.grantScan t e) :=
  haveI := flow_judges
  (via_grantScan t e).it

theorem flow_fullScanEnd (e : Engine) (t : Tables) (x : ScanInput) : Flow e (e.fullScanEnd t x) :=
  haveI := flow_judges
  haveI := flow_drives
  (via_fullScanEnd e t x).it

theorem flow_superviseZones (e : Engine) (t : Tables) (r : Bank Reading 6) : Flow e (e.superviseZones t r) :=
  haveI := flow_judges
  (via_superviseZones e t r).it

/-! ## What a grant scan and an order's course leave alone -/

/-- A grant scan, a revocation, the end of an order, a reserve start: none touches the outputs, the role map, a hand-over, a meter, a zone's state or verdicts, the part state, the target and the settings, and none makes a zone reserve-pending. -/
structure Grants (a b : Engine) : Prop where
  part : b.part = a.part
  wake : b.wake = a.wake
  outputs : b.ost.outputs = a.ost.outputs
  roleMap : b.ost.roleMap = a.ost.roleMap
  handOver : b.ost.handOver = a.ost.handOver
  meters : b.meters = a.meters
  target : b.crg.target = a.crg.target
  settings : b.crg.settings = a.crg.settings
  state : ∀ z, (b.zone z).state = (a.zone z).state
  depleted : ∀ z, (b.zone z).depleted = (a.zone z).depleted
  full : ∀ z, (b.zone z).full = (a.zone z).full
  pending : ∀ z, (a.zone z).pending = false → (b.zone z).pending = false

theorem Grants.same {a b : Engine} (h1 : b.part = a.part) (h0 : b.wake = a.wake) (h2 : b.ost.outputs = a.ost.outputs)
    (h3 : b.ost.roleMap = a.ost.roleMap) (h4 : b.ost.handOver = a.ost.handOver) (h5 : b.meters = a.meters)
    (h6 : b.crg.target = a.crg.target) (h7 : b.crg.settings = a.crg.settings) (h8 : b.zones = a.zones) : Grants a b := by
  have hz : ∀ z, b.zone z = a.zone z := fun z => by unfold Engine.zone; rw [h8]
  exact ⟨h1, h0, h2, h3, h4, h5, h6, h7, fun z => by rw [hz], fun z => by rw [hz], fun z => by rw [hz],
    fun z h => by rw [hz]; exact h⟩

/-- A change of one zone's record that keeps its state and verdicts and does not make it pending. -/
theorem Grants.zone (e : Engine) (z : Zone) (x : ZoneRec) (h1 : x.state = (e.zone z).state)
    (h2 : x.depleted = (e.zone z).depleted) (h3 : x.full = (e.zone z).full)
    (h4 : (e.zone z).pending = false → x.pending = false) : Grants e (e.putZone z x) := by
  have hz : ∀ y, (e.putZone z x).zone y = if z = y then x else e.zone y := by
    intro y
    by_cases h : z = y
    · subst h; simp
    · simp [h, Engine.zone_putZone_ne e x h]
  refine ⟨rfl, rfl, rfl, rfl, rfl, rfl, rfl, rfl, ?_, ?_, ?_, ?_⟩ <;> intro y <;> rw [hz y] <;> split <;>
    first | (rename_i h; subst h; assumption) | rfl | exact id

theorem grants_base : Base Grants where
  refl _ := .same rfl rfl rfl rfl rfl rfl rfl rfl rfl
  trans h k := ⟨k.part.trans h.part, k.wake.trans h.wake, k.outputs.trans h.outputs, k.roleMap.trans h.roleMap,
    k.handOver.trans h.handOver, k.meters.trans h.meters, k.target.trans h.target, k.settings.trans h.settings,
    fun z => (k.state z).trans (h.state z), fun z => (k.depleted z).trans (h.depleted z),
    fun z => (k.full z).trans (h.full z), fun z hz => k.pending z (h.pending z hz)⟩
  putChannel _ _ _ := .same rfl rfl rfl rfl rfl rfl rfl rfl rfl
  putMar _ _ := .same rfl rfl rfl rfl rfl rfl rfl rfl rfl
  putValve _ _ _ := .same rfl rfl rfl rfl rfl rfl rfl rfl rfl
  setCircuit _ _ := .same rfl rfl rfl rfl rfl rfl rfl rfl rfl
  putRegState _ _ := .same rfl rfl rfl rfl rfl rfl rfl rfl rfl
  hand _ _ := .same rfl rfl rfl rfl rfl rfl rfl rfl rfl
  setOutcome e z _ := .zone e z _ rfl rfl rfl id
  clearPending e z := .zone e z _ rfl rfl rfl (fun _ => rfl)

/-- What a grant scan leaves alone. -/
theorem grants_grantScan (t : Tables) (e : Engine) : Grants e (Engine.grantScan t e) :=
  haveI := grants_base
  (via_grantScan t e).it

/-- What serving the pending zones of a channel leaves alone. -/
theorem grants_servePending (e : Engine) (t : Tables) (c : ChannelNo) :
    Grants e (e.servePending t (Engine.grantScan t) c) :=
  haveI := grants_base
  (via_servePending (via_grantScan t) e t c).it

theorem grants_startReserve (e : Engine) (t : Tables) (z : Zone) (r : Reserve) :
    Grants e (e.startReserve t (Engine.grantScan t) z r) :=
  haveI := grants_base
  (via_startReserve (via_grantScan t) e t z r).it

theorem grants_revokeHolders (e : Engine) (t : Tables) (r : Role) : Grants e (e.revokeHolders t r) :=
  haveI := grants_base
  (via_revokeHolders e t r).it

theorem grants_meterReport (e : Engine) (t : Tables) (m : Meter) (x : MeterReport) :
    Grants e (e.meterReport t (Engine.grantScan t) m x) :=
  haveI := grants_base
  (via_meterReport (via_grantScan t) e t m x).it

/-! ## What only the judgement of zones changes -/

/-- Every zone has the same state. -/
def SameZones (a b : Engine) : Prop := ∀ z, (b.zone z).state = (a.zone z).state

theorem sameZones_pends : Pends SameZones where
  refl _ _ := rfl
  trans h k z := (k z).trans (h z)
  putChannel _ _ _ _ := rfl
  putMar _ _ _ := rfl
  putValve _ _ _ _ := rfl
  setCircuit _ _ _ := rfl
  putRegState _ _ _ := rfl
  hand _ _ _ := rfl
  setOutcome e z x := (grants_base.setOutcome e z x).state
  clearPending e z := (grants_base.clearPending e z).state
  setPending e z := by
    intro y
    unfold Engine.setPending
    by_cases h : z = y
    · subst h; simp
    · rw [Engine.zone_putZone_ne _ _ h]

theorem sameZones_drives : Drives SameZones where
  toBase := sameZones_pends.toBase
  putMeter _ _ _ _ := rfl
  putOst _ _ _ := rfl

end Sys2Proof.Machine
end

