-- ==== Sys2Proof/Laws/Calm.lean ====
section
/-! SUPPORT. What the engine's operations do outside READY, with every channel IDLE, the regulator starting nothing and every output at 0: they leave it so (R196, R197). -/

namespace Sys2Proof.Machine

open Sys2Proof

/-- Outside READY, with no order, a regulator that starts nothing, and every output at 0. -/
structure Calm (e : Engine) : Prop where
  part : e.part ≠ .ready
  orders : e.noOrders
  comfort : e.comfortQuiet
  levels : e.levelsZero

/-- A change that touches none of what Calm looks at. -/
theorem Calm.same {a b : Engine} (h : Calm a) (h1 : b.part = a.part) (h2 : b.channels = a.channels)
    (h3 : b.crg.state = a.crg.state) (h4 : b.ost.outputs = a.ost.outputs) : Calm b where
  part := h1 ▸ h.part
  orders := by
    intro c
    have := h.orders c
    simpa [Engine.order, Engine.channel, h2] using this
  comfort := by
    have := h.comfort
    simpa [Engine.comfortQuiet, h3] using this
  levels := by
    intro o
    have := h.levels o
    simpa [Engine.output, h4] using this

theorem Calm.foldl {α : Type} {f : Engine → α → Engine} (hf : ∀ e x, Calm e → Calm (f e x)) (l : List α) {e : Engine}
    (h : Calm e) : Calm (l.foldl f e) := by
  induction l generalizing e with
  | nil => exact h
  | cons x l ih => exact ih (hf e x h)

/-- A grant scan, or nothing in its place. -/
def Calms (k : Engine → Engine) : Prop := ∀ e, Calm e → Calm (k e)

theorem calm_hand {e : Engine} (h : Calm e) (b : ReportBody) : Calm (e.hand b) := h.same rfl rfl rfl rfl
theorem calm_putZone {e : Engine} (h : Calm e) (z : Zone) (x : ZoneRec) : Calm (e.putZone z x) := h.same rfl rfl rfl rfl
theorem calm_putMeter {e : Engine} (h : Calm e) (m : Meter) (x : MeterRec) : Calm (e.putMeter m x) := h.same rfl rfl rfl rfl
theorem calm_putValve {e : Engine} (h : Calm e) (v : ValveNo) (x : ValveRec) : Calm (e.putValve v x) := h.same rfl rfl rfl rfl
theorem calm_putClaims {e : Engine} (h : Calm e) (l : List ClaimSet) : Calm (e.putClaims l) := h.same rfl rfl rfl rfl
theorem calm_putGrants {e : Engine} (h : Calm e) (l : List ClaimSet) : Calm (e.putGrants l) := h.same rfl rfl rfl rfl
theorem calm_putMar {e : Engine} (h : Calm e) (m : Arbiter) : Calm { e with mar := m } := h.same rfl rfl rfl rfl

theorem calm_setCircuit {e : Engine} (h : Calm e) (m : Option Circuit) : Calm (e.setCircuit m) := h.same rfl rfl rfl rfl

theorem calm_putOutput {e : Engine} (h : Calm e) (o : OutputNo) (x : OutputRec) (hx : x.level = 0) :
    Calm (e.putOutput o x) where
  part := h.part
  orders := h.orders
  comfort := h.comfort
  levels := by
    intro p
    by_cases hp : o = p
    · subst hp; rw [Engine.output_putOutput_self]; exact hx
    · rw [Engine.output_putOutput_ne _ _ hp]; exact h.levels p

theorem calm_wakeUp {e : Engine} (h : Calm e) : Calm e.wakeUp where
  part := by
    rw [Engine.wakeUp_part]
    split
    · exact fun k => by cases k
    · exact h.part
  orders := by
    intro c
    have := h.orders c
    simpa [Engine.order, Engine.channel] using this
  comfort := by simpa [Engine.comfortQuiet] using h.comfort
  levels := by
    intro o
    have := h.levels o
    simpa [Engine.output] using this

/-! ## Operations on a channel do nothing -/

theorem imposeEnd_idle {e : Engine} (t : Tables) (k : Engine → Engine) {c : ChannelNo} (g : Ending)
    (h : e.order c = none) : e.imposeEnd t k c g = e := by
  unfold Engine.imposeEnd; rw [h]

theorem channelReport_idle (t : Tables) (k : Engine → Engine) (m : Meter) (x : MeterReport) {e : Engine} {c : ChannelNo}
    (h : e.order c = none) : Engine.channelReport t k m x e c = e := by
  unfold Engine.channelReport; rw [h]

theorem servePending_outside {e : Engine} (t : Tables) (k : Engine → Engine) (c : ChannelNo) (h : e.part ≠ .ready) :
    e.servePending t k c = e := by
  unfold Engine.servePending
  split
  · rename_i h1; exact absurd h1 h
  all_goals rfl

theorem calm_meterReport {e : Engine} (h : Calm e) (t : Tables) (k : Engine → Engine) (m : Meter) (x : MeterReport) :
    Calm (e.meterReport t k m x) :=
  Calm.foldl (fun e c he => by rw [channelReport_idle _ _ _ _ (he.orders c)]; exact he) _ h

/-! ## The arbiter -/

theorem calm_revoke {e : Engine} (h : Calm e) (t : Tables) (c : ChannelNo) : Calm (e.revoke t c) := by
  unfold Engine.revoke
  rw [h.orders c]
  exact calm_putGrants h _

theorem calm_grant {e : Engine} (h : Calm e) (t : Tables) (s : ClaimSet) : Calm (e.grant t s) := by
  unfold Engine.grant Engine.commandValves
  dsimp only
  refine Calm.foldl (fun e x he => ?_) _ ?_
  · split
    · exact calm_putValve he _ _
    · exact he
  · unfold Engine.mapOrder
    split
    · exact calm_setCircuit (calm_putMar h _) _
    · rename_i o ho
      exact absurd ((h.orders s.channel).symm.trans ho) (fun k => by cases k)

theorem calm_settle {e : Engine} (h : Calm e) (t : Tables) (s : ClaimSet) : Calm (e.settle t s) := by
  unfold Engine.settle
  split
  · exact calm_grant h _ _
  · split
    · unfold Engine.beginModeChange
      split
      · exact h
      · exact calm_putClaims (calm_putMar h _) _
    · exact calm_putClaims h _

theorem calm_preempt (t : Tables) (s : ClaimSet) (n : Nat) {e : Engine} (h : Calm e) : Calm (Engine.preempt t s n e) := by
  induction n generalizing e with
  | zero => exact h
  | succ n ih =>
    unfold Engine.preempt
    split
    · exact h
    · split
      · exact h
      · exact ih (calm_revoke h _ _)

theorem calm_judgeSet {e : Engine} (h : Calm e) (t : Tables) (l : List ClaimSet) (s : ClaimSet) :
    Calm (e.judgeSet t l s) := by
  unfold Engine.judgeSet
  split
  · exact calm_putClaims h _
  · split
    · exact calm_settle (calm_preempt _ _ _ h) _ _
    · exact calm_settle h _ _

theorem calm_walk (t : Tables) (n : Nat) (j : List ChannelNo) (l : List ClaimSet) {e : Engine} (h : Calm e) :
    Calm (Engine.walk t n j l e) := by
  induction n generalizing j l e with
  | zero => exact h
  | succ n ih =>
    unfold Engine.walk
    split
    · exact h
    · exact ih _ _ (calm_judgeSet h _ _ _)

theorem calm_grantScan (t : Tables) : Calms (Engine.grantScan t) := fun _ h => calm_walk _ _ _ _ h

theorem calm_equalizeEnd {e : Engine} (h : Calm e) (t : Tables) : Calm (e.equalizeEnd t) := by
  unfold Engine.equalizeEnd
  split
  · exact h
  · exact calm_grantScan t _ (calm_setCircuit (calm_putMar h _) _)

theorem calm_equalizeFall {e : Engine} (h : Calm e) (n : Nat) : Calm (e.equalizeFall n) := by
  unfold Engine.equalizeFall
  split
  · exact h
  · exact calm_putMar h _

theorem calm_equalizeIfOver (t : Tables) : Calms (Engine.equalizeIfOver t) := by
  intro e h
  unfold Engine.equalizeIfOver
  split
  · exact calm_equalizeEnd h _
  · exact h

theorem calm_parkedClock {e : Engine} (h : Calm e) (t : Tables) (n : Nat) : Calm (e.parkedClock t n) :=
  calm_equalizeIfOver t _ (calm_equalizeFall h n)

/-! ## Zones -/

theorem calm_verdicts {e : Engine} (h : Calm e) (t : Tables) (r : Bank Reading 6) : Calm (e.verdicts t r) :=
  Calm.foldl (fun _ _ he => calm_putZone he _ _) _ h

theorem calm_becomePending {e : Engine} (h : Calm e) (z : Zone) : Calm (e.becomePending z) :=
  calm_putZone (calm_putZone h _ _) _ _

theorem calm_dropPending {e : Engine} (h : Calm e) (z : Zone) : Calm (e.dropPending z) := by
  unfold Engine.dropPending
  split
  · exact calm_putZone (calm_putZone h _ _) _ _
  · exact h

theorem calm_reserveDue {e : Engine} (h : Calm e) (t : Tables) (k : Engine → Engine) (z : Zone) (r : Reserve) :
    Calm (e.reserveDue t k z r) := by
  unfold Engine.reserveDue
  split
  · exact calm_putZone h _ _
  · split
    · exact calm_becomePending h _
    · exact calm_becomePending h _
    · exact calm_becomePending h _
    · rename_i hp; exact absurd hp h.part

theorem calm_endOffenders {e : Engine} (h : Calm e) (t : Tables) (k : Engine → Engine) (z : Zone) (st : ZoneState) :
    Calm (e.endOffenders t k z st) := by
  refine Calm.foldl (fun e c he => ?_) _ h
  unfold Engine.endOffender
  rw [he.orders c]
  exact he

theorem calm_enterTrip {e : Engine} (h : Calm e) (t : Tables) (k : Engine → Engine) (z : Zone) (st : ZoneState)
    (r : Reading) : Calm (e.enterTrip t k z st r) := by
  unfold Engine.enterTrip
  dsimp only
  have h1 : Calm ((e.wakeUp.trigger z st r).endOffenders t k z st) :=
    calm_endOffenders (calm_putZone (calm_wakeUp h) _ _) _ _ _ _
  refine calm_hand ?_ _
  split
  · exact h1
  · split
    · exact calm_reserveDue h1 _ _ _ _
    · exact h1

theorem calm_judgeZones {e : Engine} (h : Calm e) (t : Tables) (k : Engine → Engine) (r : Bank Reading 6) :
    Calm (e.judgeZones t k r) := by
  refine Calm.foldl (fun e z he => ?_) _ h
  unfold Engine.judgeZone
  dsimp only
  split
  · exact he
  · split
    · exact calm_hand (calm_dropPending (calm_putZone he _ _) _) _
    · exact calm_enterTrip he _ _ _ _ _

theorem calm_rejudgePending {e : Engine} (h : Calm e) (t : Tables) (k : Engine → Engine) (z : Zone) :
    Calm (e.rejudgePending t k z) := by
  unfold Engine.rejudgePending
  split
  · split
    · exact calm_hand (calm_dropPending h _) _
    · dsimp only
      split
      · exact calm_reserveDue (calm_putZone h _ _) _ _ _ _
      · exact calm_hand (calm_reserveDue (calm_putZone h _ _) _ _ _ _) _
  · exact h

/-! ## Meters, channels, the regulator -/

theorem calm_judgeMeters {e : Engine} (h : Calm e) (t : Tables) (k : Engine → Engine) (i : Meter → Option MeterInputs) :
    Calm (e.judgeMeters t k i).1 := by
  have hl : ∀ (l : List Meter) (x : Engine × Bank (Option Int) 4), Calm x.1 →
      Calm (l.foldl (Engine.judgeMeter t k i) x).1 := by
    intro l
    induction l with
    | nil => exact fun x hx => hx
    | cons m l ih =>
      intro x hx
      rw [List.foldl_cons]
      refine ih _ ?_
      rw [Engine.judgeMeter_fst]
      exact calm_meterReport (calm_putMeter hx _ _) _ _ _ _
  exact hl Meter.all (e, Vector.replicate 4 none) h

theorem calm_holdExpires {e : Engine} (h : Calm e) (t : Tables) (k : Engine → Engine) (m : Meter) :
    Calm (e.holdExpires t k m) := by
  unfold Engine.holdExpires
  split
  · exact calm_meterReport (calm_putMeter h _ _) _ _ _ _
  · exact h

theorem calm_allHoldsExpire (t : Tables) : Calms (Engine.allHoldsExpire t) := fun _ h =>
  Calm.foldl (fun _ _ he => calm_holdExpires he _ _ _) _ h

theorem calm_channelsWork {e : Engine} (h : Calm e) (t : Tables) (f : ScanFigures) (b : Bank (Option Order) 6)
    (cs : List ChannelNo) : Calm (e.channelsWork t f b cs) := by
  refine Calm.foldl (fun e c he => ?_) _ h
  unfold Engine.channelWork
  rw [he.orders c]
  split
  · rename_i hx; cases hx
  · exact he

theorem calm_comfortJudge {e : Engine} (h : Calm e) (t : Tables) (k : Engine → Engine) (b : Bool) (m : Option Int) :
    Calm (e.comfortJudge t k b m) := by
  unfold Engine.comfortJudge
  rcases h.comfort with hc | hc <;> rw [hc] <;> exact h

theorem calm_comfortDisable {e : Engine} (h : Calm e) (t : Tables) (k : Engine → Engine) :
    Calm (e.comfortDisable t k) := by
  have h1 : Calm (e.putRegState .disabled) := ⟨h.part, h.orders, .inl rfl, h.levels⟩
  unfold Engine.comfortDisable Engine.comfortOrder
  dsimp only
  rw [h1.orders comfortChannel]
  exact h1

theorem whenReady_outside {f : Engine → Engine} {e : Engine} (h : e.part ≠ .ready) : whenReady f e = e := by
  unfold whenReady
  split
  · rename_i h1; exact absurd h1 h
  all_goals rfl

theorem calm_whenWithin {d : DueMode} {f : Engine → Engine} (hf : Calms f) : Calms (whenWithin d f) := by
  intro e h
  unfold whenWithin
  split
  · exact hf e h
  · exact h

theorem calm_judgeWork {e : Engine} (h : Calm e) (t : Tables) (x : ScanInput) (f : ScanFigures)
    (b : Bank (Option Order) 6) : Calm (e.judgeWork t x f b) := by
  unfold Engine.judgeWork
  dsimp only
  have h1 := calm_judgeZones (calm_channelsWork h t f b x.order.channelsFirst) t (Engine.grantScan t) x.readings
  split
  · exact calm_channelsWork (calm_comfortJudge h1 _ _ _ _) _ _ _ _
  · exact calm_comfortJudge (calm_channelsWork h1 _ _ _ _) _ _ _ _

theorem calm_superviseZones {e : Engine} (h : Calm e) (t : Tables) (r : Bank Reading 6) : Calm (e.superviseZones t r) :=
  calm_judgeZones (calm_verdicts h _ _) _ _ _

/-- A full scan's end outside READY, as in WAKING, drives nothing and starts nothing. -/
theorem calm_fullScanEnd {e : Engine} (h : Calm e) (t : Tables) (x : ScanInput) : Calm (e.fullScanEnd t x) := by
  unfold Engine.fullScanEnd
  dsimp only
  have h2 : Calm (((e.verdicts t x.readings).equalizeFall 1).judgeMeters t (Engine.grantScan t)
      (fun m => Bank.nth x.meters m.idx)).1 := calm_judgeMeters (calm_equalizeFall (calm_verdicts h _ _) _) _ _ _
  rw [whenReady_outside h2.part]
  have hh := calm_whenWithin (d := x.order.due) (calm_allHoldsExpire t)
  have hq := calm_whenWithin (d := x.order.due) (calm_equalizeIfOver t)
  have h6 := fun f => hh _ (calm_judgeWork h2 t x f e.ordersNow)
  cases x.order.faultsFirst with
  | true =>
    simp only [if_true]
    rw [whenReady_outside h2.part, whenReady_outside (h6 _).part, whenReady_outside (h6 _).part]
    exact hq _ (h6 _)
  | false =>
    simp only [Bool.false_eq_true, if_false]
    rw [whenReady_outside (h6 _).part, whenReady_outside (h6 _).part, whenReady_outside (h6 _).part]
    exact hq _ (h6 _)

/-! ## Exchanges -/

theorem calm_exchangeAtOnce {e : Engine} (h : Calm e) (t : Tables) (r : Role) (x : OutputNo) :
    Calm (e.exchangeAtOnce t r x) := by
  unfold Engine.exchangeAtOnce
  have h1 : Calm (e.remap r x) := h.same rfl rfl rfl rfl
  have h2 := calm_putOutput h1 x { (e.remap r x).output x with target := (e.output (e.mapped r)).target, level := 0 } rfl
  exact calm_grantScan t _ (calm_putOutput h2 _ _ (h2.levels _))

theorem calm_putHandOver {e : Engine} (h : Calm e) (x : Option HandOver) :
    Calm { e with ost := { e.ost with handOver := x } } := h.same rfl rfl rfl rfl

theorem calm_meterHandOver {e : Engine} (h : Calm e) (t : Tables) (k : Engine → Engine) (r : Role) :
    Calm (e.meterHandOver t k r) := by
  unfold Engine.meterHandOver
  split
  · exact h
  · exact calm_meterReport (calm_putMeter h _ _) _ _ _ _

theorem calm_exchangeHeld {e : Engine} (h : Calm e) (t : Tables) (r : Role) (x : OutputNo) :
    Calm (e.exchangeHeld t r x) := by
  unfold Engine.exchangeHeld
  have h1 : Calm (e.remap r x) := h.same rfl rfl rfl rfl
  have h2 := calm_putOutput h1 x { (e.remap r x).output x with target := (e.output (e.mapped r)).target, level := 0 } rfl
  refine calm_grantScan t _ (calm_meterHandOver (calm_putHandOver (calm_putOutput h2 _ _ ?_) _) _ _ _)
  exact h2.levels _

end Sys2Proof.Machine
end

