-- ==== Sys2Proof/Laws/Layouts.lean ====
section
/-! SUPPORT. The bytes of replies: fields one after another, the 25 bytes of a record body (R189), and the body of a reply with its bound (R187). -/

namespace Sys2Proof.Machine

open Sys2Proof

@[simp] theorem fieldBytes_nil : fieldBytes [] = [] := rfl

@[simp] theorem fieldBytes_cons (f : Field) (fs : List Field) : fieldBytes (f :: fs) = f.bytes ++ fieldBytes fs := rfl

@[simp] theorem fieldBytes_append (a b : List Field) : fieldBytes (a ++ b) = fieldBytes a ++ fieldBytes b := by
  simp [fieldBytes]

/-- A field whose bytes a rule gives is sent as those bytes. -/
@[simp] theorem bytes_fixed (name : String) (bs : List Byte) : (Field.mk name (.fixed bs)).bytes = bs := rfl

/-- A signed quantity of 0 or more is sent as its whole number of tenths (R183). -/
theorem bytes_maybeSigned_nonneg (name : String) (bound n : Nat) :
    (Field.mk name (.maybeSigned bound (some n))).bytes = (Field.mk name (.maybeNumber (2 * bound + 1) (some n))).bytes := rfl

/-- A record body is 25 bytes (R189). -/
theorem recordBytes_length (r : Record) : (recordBytes r).length = 25 := by
  unfold recordBytes heatBytes
  cases r.remaining <;> simp [be16, be32]

/-- A reply body begins with its code and is never longer than 1,024 bytes (R179, R187). -/
theorem body_bound (r : TxReply) : r.body_.head? = some r.code.value ∧ r.body_.length ≤ 1024 := by
  constructor <;> simp [TxReply.body_]

/-- The first bytes of a reply body after its code are those of its fields. -/
theorem take_body (r : TxReply) (n : Nat) (h : n < 1024) :
    r.body_.take (n + 1) = r.code.value :: (fieldBytes r.body.fields).take n := by
  unfold TxReply.body_
  rw [List.take_take, show min (n + 1) 1024 = n + 1 by omega, List.take_succ_cons]

end Sys2Proof.Machine
end

