-- ==== Sys2Proof/Laws/Link.lean ====
section
/-! SUPPORT. The receiver: what a good frame and what any bytes do (R178); what becomes of a request: the four ways a frame of the catalogue is dealt with (R180, R181), and what no request's owner touches. -/

namespace Sys2Proof.Machine

open Sys2Proof

@[simp] theorem State.asTaken_eng (s : State) : s.asTaken.eng = s.eng.wakeUp := rfl
@[simp] theorem State.asTaken_tab (s : State) : s.asTaken.tab = s.tab := rfl
@[simp] theorem State.asTaken_sbe (s : State) : s.asTaken.sbe = s.sbe := rfl
@[simp] theorem State.asTaken_panel (s : State) : s.asTaken.panel = s.panel := rfl
@[simp] theorem State.asTaken_run (s : State) : s.asTaken.run = s.run := rfl
@[simp] theorem State.asTaken_stored (s : State) : s.asTaken.stored = s.stored := rfl
@[simp] theorem State.asTaken_pending (s : State) : s.asTaken.pending = s.pending := rfl
@[simp] theorem State.asTaken_cfc (s : State) : s.asTaken.cfc = { s.cfc with parkTimer := 0 } := rfl
@[simp] theorem State.asTaken_link (s : State) :
    s.asTaken.link = { s.link with rx := .hunting, slot := .taken } := rfl

theorem State.asTaken_starting (s : State) : s.asTaken.eng.part = .starting ↔ s.eng.part = .starting := by
  simp only [State.asTaken_eng, Engine.wakeUp_part]
  cases s.eng.part <;> simp

/-! ## The receiver -/

@[simp] theorem State.putRx_run (s : State) (rx : RxState) : (s.putRx rx).run = s.run := rfl
@[simp] theorem State.putRx_eng (s : State) (rx : RxState) : (s.putRx rx).eng = s.eng := rfl
@[simp] theorem State.putRx_link (s : State) (rx : RxState) : (s.putRx rx).link = { s.link with rx := rx } := rfl
@[simp] theorem State.putRx_putRx (s : State) (a b : RxState) : (s.putRx a).putRx b = s.putRx b := rfl

theorem State.putRx_same {s : State} {rx : RxState} (h : s.link.rx = rx) : s.putRx rx = s := by subst h; rfl

@[simp] theorem State.putRx_frameComplete (s : State) (rx : RxState) : (s.putRx rx).frameComplete = s.frameComplete := rfl

theorem State.receive_append (on : OnFrame) (s : State) (a b : List RxByte) :
    s.receive on (a ++ b) = (s.receive on a).receive on b := List.foldl_append

/-- Whatever bytes the port takes: what every receive state, every FRAME-ERROR reply and every completed frame keeps, it keeps. -/
theorem receive_keeps {P : State → Prop} {on : OnFrame} (hr : ∀ s rx, P s → P (s.putRx rx))
    (he : ∀ s, P s → P (s.errorReply 0x80 0 .frameError)) (hc : ∀ k q b s, P s → P (on k q b s))
    {s : State} (h : P s) (bytes : List RxByte) : P (s.receive on bytes) := by
  induction bytes generalizing s with
  | nil => exact h
  | cons x l ih =>
    refine ih ?_
    unfold State.receiveByte State.rxEvent
    dsimp only
    split
    · exact hr _ _ h
    · exact he _ (hr _ _ h)
    · exact hc _ _ _ _ (hr _ _ h)

/-- What a completed frame of a kind and all the rest of its arrival keep. -/
theorem frameArrives_keeps {P : State → Prop} {kind seq : Byte} {body : List Byte} {f : State → State}
    (hr : ∀ s rx, P s → P (s.putRx rx)) (he : ∀ s, P s → P (s.errorReply 0x80 0 .frameError))
    (hw : ∀ s, P s → P s.frameComplete) (hf : ∀ s, P s → P (f s)) {s : State} (h : P s) :
    P (s.frameArrives kind seq body f) := by
  refine receive_keeps hr he ?_ h _
  intro k q b s h
  unfold thisFrame
  split
  · exact hf _ h
  · exact hw _ h

/-- Bytes that leave the frame short of its end are taken into it, damaged ones too. -/
theorem receive_within (on : OnFrame) (s : State) (len : Byte) (hl : len.toNat ≤ 120) (l : List RxByte) (acc rest : List Byte)
    (d : Bool) (h : acc ++ l.map (·.value) = len :: rest) (hs : (acc ++ l.map (·.value)).length < len.toNat + 5) :
    (s.putRx (.receiving acc d)).receive on l = s.putRx (.receiving (acc ++ l.map (·.value)) (d || l.any (·.damaged))) := by
  induction l generalizing acc rest d with
  | nil => simp [State.receive]
  | cons x l ih =>
    rw [List.map_cons] at h hs ⊢
    have e : acc ++ x.value :: l.map (·.value) = (acc ++ [x.value]) ++ l.map (·.value) := by simp
    obtain ⟨r, hr⟩ : ∃ r, acc ++ [x.value] = len :: r := by
      cases acc with
      | nil => simp only [List.nil_append, List.cons.injEq] at h; exact ⟨[], by simp [h.1]⟩
      | cons a acc => simp only [List.cons_append, List.cons.injEq] at h; exact ⟨acc ++ [x.value], by simp [h.1]⟩
    have hof : RxState.of (acc ++ [x.value]) (d || x.damaged) = (.receiving (acc ++ [x.value]) (d || x.damaged), .none) := by
      have hlen : (len :: r).length < len.toNat + 5 := by
        rw [← hr]
        simp only [List.length_append, List.length_cons, List.length_nil] at hs ⊢
        omega
      rw [hr]
      unfold RxState.of
      dsimp only
      rw [if_neg (by omega), if_pos hlen]
    have step : State.receiveByte on (s.putRx (.receiving acc d)) x
        = s.putRx (.receiving (acc ++ [x.value]) (d || x.damaged)) := by
      unfold State.receiveByte
      simp only [State.putRx_link, RxState.take, hof, State.rxEvent, State.putRx_putRx]
    rw [e, List.any_cons, ← Bool.or_assoc]
    show State.receive on (State.receiveByte on _ x) l = _
    rw [step]
    exact ih _ rest _ (by rw [← e]; exact h) (by rw [← e]; exact hs)

/-- Undamaged bytes that leave the frame short of its end are taken into it. -/
theorem receive_short (on : OnFrame) (s : State) (len : Byte) (hl : len.toNat ≤ 120) (l acc rest : List Byte)
    (h : acc ++ l = len :: rest) (hs : (acc ++ l).length < len.toNat + 5) :
    (s.putRx (.receiving acc false)).receive on (goodBytes l) = s.putRx (.receiving (acc ++ l) false) := by
  have hv : (goodBytes l).map (·.value) = l := by simp [goodBytes, Function.comp_def]
  have hd : (goodBytes l).any (·.damaged) = false := by simp [goodBytes]
  have k := receive_within on s len hl (goodBytes l) acc rest false (by rw [hv]; exact h) (by rw [hv]; exact hs)
  rw [hv, hd] at k
  exact k

/-- The bytes of a request frame after its start byte. -/
def frameTail (kind seq : Byte) (body : List Byte) : List Byte :=
  requestInner kind seq body ++ be16 (crc16 (requestInner kind seq body)).toNat

theorem frameTail_length (kind seq : Byte) (body : List Byte) : (frameTail kind seq body).length = body.length + 5 := by
  simp [frameTail, requestInner, be16]

/-- A whole request frame is judged to be what it is. -/
theorem of_frameTail (kind seq : Byte) {body : List Byte} (hb : fitsFrame body) :
    RxState.of (frameTail kind seq body) false = (.hunting, .complete kind seq body) := by
  have hn : (BitVec.ofNat 8 body.length).toNat = body.length := by
    have : body.length ≤ 120 := hb
    simp only [BitVec.toNat_ofNat]; omega
  have hl := frameTail_length kind seq body
  have hc : frameTail kind seq body = BitVec.ofNat 8 body.length :: kind :: seq ::
      (body ++ be16 (crc16 (requestInner kind seq body)).toNat) := rfl
  unfold RxState.of
  rw [hc]
  dsimp only
  rw [hn, ← hc, if_neg (by have : body.length ≤ 120 := hb; omega), if_neg (by omega)]
  have ht : (frameTail kind seq body).take (body.length + 3) = requestInner kind seq body := by
    unfold frameTail
    rw [List.take_append_of_le_length (by simp [requestInner]), List.take_of_length_le (by simp [requestInner])]
  unfold judgeFrame
  rw [hc]
  dsimp only
  rw [← hc, ht, if_pos ⟨rfl, by simp⟩]
  simp

/-- The rest of a request frame whose first bytes the port holds. -/
theorem receive_rest (on : OnFrame) (s : State) (kind seq : Byte) {body : List Byte} (hb : fitsFrame body)
    (acc l : List Byte) (h : acc ++ l = frameTail kind seq body) (hl : l ≠ []) :
    (s.putRx (.receiving acc false)).receive on (goodBytes l) = on kind seq body (s.putRx .hunting) := by
  have hb' : body.length ≤ 120 := hb
  obtain ⟨m, x, rfl⟩ : ∃ m x, l = m ++ [x] := ⟨l.dropLast, l.getLast hl, (List.dropLast_append_getLast hl).symm⟩
  have hlen := frameTail_length kind seq body
  rw [← h] at hlen
  simp only [List.length_append, List.length_cons, List.length_nil] at hlen
  have hn : (BitVec.ofNat 8 body.length).toNat = body.length := by simp only [BitVec.toNat_ofNat]; omega
  obtain ⟨rest, hr⟩ : ∃ rest, acc ++ m = BitVec.ofNat 8 body.length :: rest := by
    have h0 : frameTail kind seq body = BitVec.ofNat 8 body.length :: kind :: seq ::
        (body ++ be16 (crc16 (requestInner kind seq body)).toNat) := rfl
    rw [h0, ← List.append_assoc] at h
    cases hm : acc ++ m with
    | nil => rw [← List.length_eq_zero_iff, List.length_append] at hm; omega
    | cons a r => rw [hm, List.cons_append, List.cons.injEq] at h; exact ⟨r, by rw [h.1]⟩
  rw [show goodBytes (m ++ [x]) = goodBytes m ++ [⟨x, false⟩] by simp [goodBytes], State.receive_append,
    receive_short on s _ (by omega) m acc rest hr (by rw [List.length_append, hn]; omega)]
  show State.receiveByte on _ _ = _
  unfold State.receiveByte
  simp only [State.putRx_link, RxState.take, Bool.or_false]
  rw [List.append_assoc, h, of_frameTail kind seq hb]
  rfl

/-- A frame's bytes after its start byte with a wrong CRC or a damaged byte fail. -/
theorem receive_failed (on : OnFrame) (s : State) (kind seq : Byte) {body : List Byte} (hb : fitsFrame body)
    (bytes : List RxByte) (hlen : bytes.length = body.length + 5)
    (ht : (bytes.map (·.value)).take (body.length + 3) = requestInner kind seq body)
    (hbad : (∃ x ∈ bytes, x.damaged = true)
      ∨ (bytes.map (·.value)).drop (body.length + 3) ≠ be16 (crc16 (requestInner kind seq body)).toNat) :
    (s.putRx (.receiving [] false)).receive on bytes = (s.putRx .hunting).errorReply 0x80 0 .frameError := by
  have hb' : body.length ≤ 120 := hb
  have hne : bytes ≠ [] := fun h => by rw [h] at hlen; simp at hlen
  obtain ⟨m, x, rfl⟩ : ∃ m x, bytes = m ++ [x] :=
    ⟨bytes.dropLast, bytes.getLast hne, (List.dropLast_append_getLast hne).symm⟩
  have hn : (BitVec.ofNat 8 body.length).toNat = body.length := by simp only [BitVec.toNat_ofNat]; omega
  simp only [List.length_append, List.length_cons, List.length_nil] at hlen
  have hd := List.take_append_drop (body.length + 3) ((m ++ [x]).map (·.value))
  rw [ht] at hd
  have hc : (m ++ [x]).map (·.value) = BitVec.ofNat 8 body.length :: kind :: seq ::
      (body ++ ((m ++ [x]).map (·.value)).drop (body.length + 3)) := by rw [← hd]; simp [requestInner]
  have hm : (m ++ [x]).map (·.value) = m.map (·.value) ++ [x.value] := by simp
  obtain ⟨rest, hr⟩ : ∃ rest, [] ++ m.map (·.value) = BitVec.ofNat 8 body.length :: rest := by
    rw [hm] at hc
    cases hx : m.map (·.value) with
    | nil => rw [← List.length_eq_zero_iff, List.length_map] at hx; omega
    | cons a r => rw [hx, List.cons_append, List.cons.injEq] at hc; exact ⟨r, by rw [← hc.1]; rfl⟩
  rw [State.receive_append, receive_within on s _ (by omega) m [] rest false hr
    (by simp only [List.nil_append, List.length_map]; omega)]
  show State.receiveByte on _ _ = _
  unfold State.receiveByte
  simp only [State.putRx_link, RxState.take, List.nil_append, Bool.false_or]
  have hof : RxState.of (m.map (·.value) ++ [x.value]) (m.any (·.damaged) || x.damaged) = (.hunting, .failed) := by
    rw [← hm, hc]
    unfold RxState.of
    dsimp only
    rw [hn, ← hc, if_neg (by omega), if_neg (by rw [List.length_map, List.length_append, List.length_singleton]; omega)]
    unfold judgeFrame
    rw [hc]
    dsimp only
    rw [← hc, ht, if_neg]
    rintro ⟨h1, h2⟩
    rcases hbad with ⟨y, hy, hy'⟩ | hbad
    · simp only [Bool.or_eq_false_iff] at h1
      simp only [List.mem_append, List.mem_singleton] at hy
      rcases hy with hy | rfl
      · have := List.any_eq_false.1 h1.1 y hy; exact this hy'
      · rw [h1.2] at hy'; exact absurd hy' (by decide)
    · rw [List.drop_left] at h2; exact hbad h2.symm
  rw [hof]
  rfl

/-- A good frame on a port at the start of a frame. -/
theorem receive_frame (on : OnFrame) {s : State} (h : s.link.rx = .hunting) (kind seq : Byte) {body : List Byte}
    (hb : fitsFrame body) : s.receive on (goodBytes (requestFrame kind seq body)) = on kind seq body s := by
  have hne : frameTail kind seq body ≠ [] := by
    rw [Ne, ← List.length_eq_zero_iff, frameTail_length]; omega
  have h0 : s.receive on (goodBytes (requestFrame kind seq body))
      = (s.putRx (.receiving [] false)).receive on (goodBytes (frameTail kind seq body)) := by
    show State.receive on (State.receiveByte on s ⟨0xA5, false⟩) (goodBytes (frameTail kind seq body)) = _
    have : State.receiveByte on s ⟨0xA5, false⟩ = s.putRx (.receiving [] false) := by
      unfold State.receiveByte
      rw [h]
      rfl
    rw [this]
  rw [h0]
  exact (receive_rest on s kind seq hb [] (frameTail kind seq body) rfl hne).trans (by rw [State.putRx_same h])

/-- A request frame whose start the port has not seen yet. -/
theorem frameArrives_hunting {s : State} (h : s.link.rx = .hunting) (kind seq : Byte) {body : List Byte}
    (hb : fitsFrame body) (f : State → State) : s.frameArrives kind seq body f = f s := by
  unfold State.frameArrives
  rw [h]
  show State.receive _ _ (goodBytes (requestFrame kind seq body)) = _
  rw [receive_frame _ h kind seq hb]
  simp [thisFrame]

/-- A request frame whose first bytes the port holds already. -/
theorem frameArrives_resumed (s : State) (kind seq : Byte) {body : List Byte} (hb : fitsFrame body) (n : Nat)
    (hn : n < body.length + 5) (f : State → State) :
    (s.putRx (.receiving ((frameTail kind seq body).take n) false)).frameArrives kind seq body f = f (s.putRx .hunting) := by
  have hl := frameTail_length kind seq body
  have hf : requestFrame kind seq body = 0xA5 :: frameTail kind seq body := rfl
  have hrest : (RxState.receiving ((frameTail kind seq body).take n) false).rest (requestFrame kind seq body)
      = (frameTail kind seq body).drop n := by
    have ht : ((frameTail kind seq body).take n).length = n := by rw [List.length_take]; omega
    unfold RxState.rest
    dsimp only
    rw [ht, hf, if_pos ⟨rfl, by rw [List.length_cons]; omega, rfl⟩]
    rfl
  unfold State.frameArrives
  simp only [State.putRx_link]
  rw [hrest, receive_rest _ s kind seq hb _ _ (List.take_append_drop n _)
    (by rw [Ne, ← List.length_eq_zero_iff, List.length_drop]; omega)]
  simp [thisFrame]

/-! ## What becomes of a request -/

/-- A request on a port at the start of a frame. -/
theorem request_listening {s : State} (h : s.listening) (kind : Byte) {f : Frame} (hb : fitsFrame f.body)
    (owner : State → Answer) : s.request kind f owner
      = .next (s.frameTaken kind f.seq (fun s => s.judgeRequest kind f.lengthFits owner)) := by
  unfold State.request State.whileRunning
  rw [h.1]
  dsimp only
  rw [frameArrives_hunting h.2 _ _ hb]

/-- A request that the port takes is judged, and its reply given to the transmitter. -/
theorem request_free {s : State} (h : s.free) (kind : Byte) {f : Frame} (hb : fitsFrame f.body) (owner : State → Answer) :
    s.request kind f owner = .next ((s.asTaken.judgeRequest kind f.lengthFits owner).sent kind f.seq) := by
  obtain ⟨h1, h2, h3⟩ := h
  rw [request_listening h1 _ hb]
  simp [State.frameTaken, h2, h3, State.asTaken]

/-- A request that goes to its owner. -/
theorem request_accepted {s : State} {f : Frame} (h : s.accepts f) (kind : Byte) (owner : State → Answer) :
    s.request kind f owner = .next ((owner s.asTaken).sent kind f.seq) := by
  obtain ⟨h1, h2, hb, h3⟩ := h
  have h4 : s.asTaken.eng.part ≠ .starting := fun k => h2 ((State.asTaken_starting s).1 k)
  rw [request_free h1 _ hb, State.judgeRequest, if_neg (fun k => h4 k.1), if_pos h3]

/-- A request that finds the slot TAKEN and the waiting place empty. -/
theorem request_busy {s : State} (h1 : s.listening) (h2 : s.link.slot = .taken) (h3 : s.link.waiting = none)
    (kind : Byte) {f : Frame} (hb : fitsFrame f.body) (owner : State → Answer) :
    s.request kind f owner = .next (s.frameComplete.putLink
      (s.frameComplete.link.transmit ⟨replyKind kind, f.seq, .busy, .none, false, false⟩)) := by
  rw [request_listening h1 _ hb]
  simp [State.frameTaken, h2, State.errorReply, h3]

/-- A request that finds a reply waiting is discarded. -/
theorem request_waiting {s : State} (h1 : s.listening) (h3 : s.link.waiting ≠ none) (kind : Byte) {f : Frame}
    (hb : fitsFrame f.body) (owner : State → Answer) : s.request kind f owner = .next s.frameComplete := by
  have h4 : s.link.waiting.isSome = true := Option.isSome_iff_ne_none.2 h3
  rw [request_listening h1 _ hb]
  cases h2 : s.link.slot <;> simp [State.frameTaken, h2, State.errorReply, h4]

/-- An answer that is a code and a body, given to the transmitter. -/
theorem gives_sent (s : State) (c : ReplyCode) (b : ReplyBody) (kind k : Byte) (f : Frame) (hk : replyKind kind = k) :
    (s.gives c b).sent kind f.seq = s.answered f k c b := by
  subst hk; rfl

theorem says_sent (s : State) (c : ReplyCode) (kind k : Byte) (f : Frame) (hk : replyKind kind = k) :
    (s.says c).sent kind f.seq = s.answered f k c .none := by
  subst hk; rfl

/-- What no request's owner touches. -/
structure Owned (a b : State) : Prop where
  run : b.run = a.run
  link : b.link = a.link
  stored : b.stored = a.stored
  pending : b.pending = a.pending
  straps : b.tab.straps = a.tab.straps
  inputs : b.sbe.inputs = a.sbe.inputs
  applied : b.sbe.applied = a.sbe.applied
  readings : b.sbe.readings = a.sbe.readings
  imageStatus : b.cfc.imageStatus = a.cfc.imageStatus
  imageTuning : b.cfc.imageTuning = a.cfc.imageTuning
  panel : b.panel = { a.panel with lock := b.panel.lock }

theorem Owned.refl (s : State) : Owned s s := ⟨rfl, rfl, rfl, rfl, rfl, rfl, rfl, rfl, rfl, rfl, rfl⟩
theorem Owned.eng (s : State) (e : Engine) : Owned s (s.putEngine e) := ⟨rfl, rfl, rfl, rfl, rfl, rfl, rfl, rfl, rfl, rfl, rfl⟩

theorem Owned.tables (s : State) (t : Tables) (h : t.straps = s.tab.straps) : Owned s (s.putTables t) :=
  ⟨rfl, rfl, rfl, rfl, h, rfl, rfl, rfl, rfl, rfl, rfl⟩

theorem owned_start (c l k t w : Nat) (s : State) : Owned s (answerStart c l k t w s).state := by
  unfold answerStart
  split
  · exact .refl _
  · split
    · exact .refl _
    · split
      · exact .refl _
      · exact .eng _ _

theorem owned_halt (c : Nat) (s : State) : Owned s (answerHalt c s).state := by
  unfold answerHalt
  split
  · exact .refl _
  · split
    · exact .refl _
    · split
      · exact .refl _
      · split
        · exact .refl _
        · split <;> first | exact .refl _ | exact .eng _ _

theorem owned_query (c : Nat) (s : State) : Owned s (answerQuery c s).state := by
  unfold answerQuery
  split
  · exact .refl _
  · split
    · exact .eng _ _
    · split <;> exact .refl _

theorem owned_fetch (s : State) : Owned s (answerFetch s).state := by
  unfold answerFetch
  split
  · exact .refl _
  · exact .eng _ _

theorem owned_writeSegments (b : List Byte) (s : State) : Owned s (answerWriteSegments b s).state := by
  unfold answerWriteSegments
  split
  · exact .refl _
  · split
    · exact .refl _
    · exact .tables _ _ rfl

theorem owned_readSegments (a b : Nat) (s : State) : Owned s (answerReadSegments a b s).state := by
  unfold answerReadSegments
  split <;> exact .refl _

theorem owned_writePath (n : Nat) (w : PathWrite) (s : State) : Owned s (answerWritePath n w s).state := by
  unfold answerWritePath
  split
  · split
    · exact .refl _
    · split
      · exact .refl _
      · exact .tables _ _ rfl
  · exact .refl _

theorem owned_readPath (n : Nat) (s : State) : Owned s (answerReadPath n s).state := by
  unfold answerReadPath
  split <;> exact .refl _

theorem owned_writeZone (n : Nat) (w : ZoneWrite) (s : State) : Owned s (answerWriteZone n w s).state := by
  unfold answerWriteZone
  split
  · exact .refl _
  · split
    · exact .refl _
    · split
      · exact .refl _
      · simp only [State.gives, State.takeZoneWrite]
        split <;> exact ⟨rfl, rfl, rfl, rfl, rfl, rfl, rfl, rfl, rfl, rfl, rfl⟩

theorem owned_readZone (n : Nat) (s : State) : Owned s (answerReadZone n s).state := by
  unfold answerReadZone
  split <;> exact .refl _

theorem owned_writeSensorMap (es : List RawMapEntry) (s : State) : Owned s (answerWriteSensorMap es s).state := by
  unfold answerWriteSensorMap
  split
  · exact .refl _
  · split
    · exact .refl _
    · exact ⟨rfl, rfl, rfl, rfl, rfl, rfl, rfl, rfl, rfl, rfl, rfl⟩

theorem owned_checksum (a : Area) (x y : Nat) (s : State) : Owned s (answerChecksum a x y s).state := by
  unfold answerChecksum
  split <;> exact .refl _

theorem owned_exchange (r : Option Role) (b : Bool) (s : State) : Owned s (answerExchange r b s).state := by
  unfold answerExchange
  split
  · exact .refl _
  · exact .eng _ _
  · exact .eng _ _

theorem owned_test (i : TestItem) (s : State) : Owned s (answerTest i s).state := by
  unfold answerTest
  split
  · exact .refl _
  · split
    · exact .refl _
    · unfold answerOutputTest
      repeat' split
      all_goals first | exact .refl _ | exact .eng _ _
  · split
    · exact .refl _
    · unfold answerValveTest
      repeat' split
      all_goals first | exact .refl _ | exact .eng _ _

theorem owned_target (h : Int) (s : State) : Owned s (answerTarget h s).state := by
  unfold answerTarget
  dsimp only
  split
  · exact .eng _ _
  · exact .refl _

theorem owned_comfortOn (g : Option RawComfort) (s : State) : Owned s (answerComfortOn g s).state := by
  unfold answerComfortOn
  repeat' split
  all_goals first | exact .refl _ | exact .eng _ _

theorem owned_panelLock (b : Option Bool) (s : State) : Owned s (answerPanelLock b s).state := by
  unfold answerPanelLock
  split
  · exact .refl _
  · exact ⟨rfl, rfl, rfl, rfl, rfl, rfl, rfl, rfl, rfl, rfl, rfl⟩

theorem owned_tuning (t : Tuning) (b : Bool) (s : State) : Owned s (answerTuning t b s).state := by
  unfold answerTuning
  split
  · exact .refl _
  · split
    · exact .refl _
    · exact ⟨rfl, rfl, rfl, rfl, rfl, rfl, rfl, rfl, rfl, rfl, rfl⟩

theorem Owned.control (s : State) (c : Control) (h1 : c.imageStatus = s.cfc.imageStatus)
    (h2 : c.imageTuning = s.cfc.imageTuning) : Owned s (s.putControl c) :=
  ⟨rfl, rfl, rfl, rfl, rfl, rfl, rfl, rfl, h1, h2, rfl⟩

theorem owned_mode (m : Option Mode) (s : State) : Owned s (answerMode m s).state := by
  unfold answerMode
  repeat' split
  all_goals first | exact .refl _ | exact .control _ _ rfl rfl

theorem owned_setLock (l : Locks) (s : State) : Owned s (answerSetLock l s).state := by
  unfold answerSetLock
  repeat' split
  all_goals first | exact .refl _ | exact .control _ _ rfl rfl

theorem owned_releasePathLock (s : State) : Owned s (answerReleasePathLock s).state := by
  unfold answerReleasePathLock
  repeat' split
  all_goals first | exact .refl _ | exact .control _ _ rfl rfl

theorem owned_window (w : Option (Nat × Nat)) (s : State) : Owned s (answerWindow w s).state := by
  unfold answerWindow
  repeat' split
  all_goals first | exact .refl _ | exact .control _ _ rfl rfl

theorem owned_save (s : State) : Owned s (answerSave s).state := by
  unfold answerSave
  split
  · exact .refl _
  all_goals exact .control _ _ rfl rfl

theorem owned_park (s : State) : Owned s (answerPark s).state := by
  unfold answerPark
  split
  · exact ⟨rfl, rfl, rfl, rfl, rfl, rfl, rfl, rfl, rfl, rfl, rfl⟩
  · exact .refl _

/-- A command that is a request is answered by an owner that leaves alone what Owned lists. -/
theorem owner_of_request {c : Instr} {kind : Byte} {f : Frame} (h : requestOf c = some (kind, f)) :
    ∃ owner : State → Answer, (∀ s, exec c s = s.request kind f owner) ∧ ∀ s, Owned s (owner s).state := by
  cases c <;> simp only [requestOf, Option.some.injEq, Prod.mk.injEq, reduceCtorEq] at h
  all_goals obtain ⟨rfl, rfl⟩ := h
  · exact ⟨_, fun _ => rfl, fun _ => .refl _⟩
  · exact ⟨_, fun _ => rfl, fun _ => .refl _⟩
  · exact ⟨_, fun _ => rfl, owned_start _ _ _ _ _⟩
  · exact ⟨_, fun _ => rfl, owned_halt _⟩
  · exact ⟨_, fun _ => rfl, owned_query _⟩
  · exact ⟨_, fun _ => rfl, owned_fetch⟩
  · exact ⟨_, fun _ => rfl, owned_writeSegments _⟩
  · exact ⟨_, fun _ => rfl, owned_readSegments _ _⟩
  · exact ⟨_, fun _ => rfl, owned_writePath _ _⟩
  · exact ⟨_, fun _ => rfl, owned_readPath _⟩
  · exact ⟨_, fun _ => rfl, owned_writeZone _ _⟩
  · exact ⟨_, fun _ => rfl, owned_readZone _⟩
  · exact ⟨_, fun _ => rfl, owned_writeSensorMap _⟩
  · exact ⟨_, fun _ => rfl, owned_checksum _ _ _⟩
  · exact ⟨_, fun _ => rfl, fun _ => .refl _⟩
  · exact ⟨_, fun _ => rfl, owned_exchange _ _⟩
  · exact ⟨_, fun _ => rfl, owned_test _⟩
  · exact ⟨_, fun _ => rfl, owned_target _⟩
  · exact ⟨_, fun _ => rfl, owned_comfortOn _⟩
  · exact ⟨_, fun _ => rfl, fun _ => .eng _ _⟩
  · exact ⟨_, fun _ => rfl, owned_panelLock _⟩
  · exact ⟨_, fun _ => rfl, owned_tuning _ _⟩
  · exact ⟨_, fun _ => rfl, owned_mode _⟩
  · exact ⟨_, fun _ => rfl, owned_setLock _⟩
  · exact ⟨_, fun _ => rfl, owned_releasePathLock⟩
  · exact ⟨_, fun _ => rfl, owned_window _⟩
  · exact ⟨_, fun _ => rfl, owned_save⟩
  · exact ⟨_, fun _ => rfl, fun _ => .control _ _ rfl rfl⟩
  · exact ⟨_, fun _ => rfl, owned_park⟩
  · exact ⟨_, fun _ => rfl, fun _ => .refl _⟩

end Sys2Proof.Machine
end

