-- ==== Sys2Proof/Laws/Shapes.lean ====
section
/-! SUPPORT. Shapes that proofs meet again and again: folds over the channels of which at most one does something, a channel's order put twice, and the Bool judgements of parking and use read as propositions. -/

namespace Sys2Proof.Machine

open Sys2Proof

theorem mem_allChannels (c : ChannelNo) : c ∈ allChannels := by revert c; decide
theorem mem_allOutputs (o : OutputNo) : o ∈ allOutputs := by revert o; decide
theorem mem_allValves (v : ValveNo) : v ∈ allValves := by revert v; decide
theorem mem_allZones (z : Zone) : z ∈ Zone.all := by cases z <;> decide

theorem finOf_val {n : Nat} (i : Fin n) : finOf n i.val = some i := by simp [finOf]

/-- The last order put on a channel stands. -/
theorem Engine.putOrder_putOrder (e : Engine) (c : ChannelNo) (a b : Option Order) :
    (e.putOrder c a).putOrder c b = e.putOrder c b := by
  simp only [Engine.putOrder, Engine.putChannel, Engine.channel, Bank.nth_put_self]
  simp [Bank.put]

/-- A fold whose every step keeps the engine keeps it. -/
theorem foldl_keeps {α : Type} (f : Engine → α → Engine) (l : List α) (e : Engine) (h : ∀ x ∈ l, f e x = e) :
    l.foldl f e = e := by
  induction l with
  | nil => rfl
  | cons x l ih => rw [List.foldl_cons, h x List.mem_cons_self, ih (fun y hy => h y (List.mem_cons_of_mem _ hy))]

/-- A fold over the channels of which one alone does something. -/
theorem foldl_one_channel (f : Engine → ChannelNo → Engine) (e e' : Engine) (c : ChannelNo)
    (h0 : ∀ d, d ≠ c → f e d = e) (h1 : f e c = e') (h2 : ∀ d, d ≠ c → f e' d = e') : allChannels.foldl f e = e' := by
  have split : ∀ c : ChannelNo, ∃ i : Fin 6, allChannels = allChannels.take i ++ c :: allChannels.drop (i + 1)
      ∧ c ∉ allChannels.take i ∧ c ∉ allChannels.drop (i + 1) := by decide
  obtain ⟨i, hi, ha, hb⟩ := split c
  rw [hi, List.foldl_append, foldl_keeps f _ e (fun x hx => h0 x (fun k => ha (k ▸ hx))), List.foldl_cons, h1,
    foldl_keeps f _ e' (fun x hx => h2 x (fun k => hb (k ▸ hx)))]

theorem Engine.allIdle_iff (e : Engine) : e.allIdle = true ↔ ∀ c, e.order c = none := by
  simp only [Engine.allIdle, List.all_eq_true, Option.isNone_iff_eq_none]
  exact ⟨fun h c => h c (mem_allChannels c), fun h c _ => h c⟩

/-- The park conditions as a proposition. -/
theorem parkable_iff_quiet (s : State) : s.eng.parkable s.cfc.save = true ↔ s.quiet := by
  unfold Engine.parkable State.quiet
  simp only [Bool.and_eq_true, Engine.allIdle_iff, List.all_eq_true, decide_eq_true_eq, Option.isNone_iff_eq_none, and_assoc]
  refine and_congr Iff.rfl (and_congr ?_ (and_congr ?_ (and_congr ?_ (and_congr ?_ Iff.rfl))))
  · cases s.eng.crg.state <;> simp
  · exact ⟨fun h z => h z (mem_allZones z), fun h z _ => h z⟩
  · exact ⟨fun h z => h z (mem_allOutputs z), fun h z _ => h z⟩
  · exact ⟨fun h z => h z (mem_allValves z), fun h z _ => h z⟩

/-- What the entry to PARKED does. -/
theorem parksTo_enterParked (s : State) : s.parksTo s.enterParked := by
  refine ⟨rfl, ?_, ?_, rfl, rfl, ?_, rfl, rfl, rfl, rfl, rfl, rfl, rfl⟩
  · intro o
    simp [State.enterParked, Engine.enterParked, Engine.output, OutputStage.parked, Engine.meterAllLost, Bank.each, Bank.nth]
  · intro v
    simp [State.enterParked, Engine.enterParked, Engine.valve, OutputStage.parked, Engine.meterAllLost, Bank.each, Bank.nth]
  · intro m
    simp [State.enterParked, Engine.enterParked, Engine.meter, Engine.meterAllLost, Bank.each, Bank.nth, MeterRec.lost,
      MeterRec.initial]

/-- A path entry in use, as R45 lists the uses. -/
theorem pathInUse_iff (e : Engine) (n : PathNo) : e.pathInUse n = true ↔
    ((∃ c o, e.order c = some o ∧ (o.copy.path = n ∨ ∃ x, o.next = some x ∧ x.path = n))
      ∨ (e.crg.state ≠ .disabled ∧ (e.crg.settings.heatPath = some n ∨ e.crg.settings.coolPath = some n))) := by
  simp only [Engine.pathInUse, Bool.or_eq_true, List.any_eq_true, Option.any_eq_true, Bool.and_eq_true, decide_eq_true_eq]
  refine or_congr ⟨?_, ?_⟩ Iff.rfl
  · rintro ⟨c, _, o, h, k⟩; exact ⟨c, o, h, k⟩
  · rintro ⟨c, o, h, k⟩; exact ⟨c, mem_allChannels c, o, h, k⟩

/-- A channel for which no zone is pending serves none. -/
theorem servePending_none (t : Tables) (k : Engine → Engine) (e : Engine) (c : ChannelNo)
    (h : ∀ z, (e.zone z).pending = false) : e.servePending t k c = e := by
  unfold Engine.servePending
  have sz : ∀ z ∈ Zone.all, Engine.serveZone t k c e z = e := by
    intro z _
    unfold Engine.serveZone
    split
    · rfl
    · simp [h z]
  cases e.part <;> simp only []
  exact foldl_keeps _ _ _ sz

/-- Regulation ends nothing of the regulator at a TIME end (R160). -/
theorem regulatorTakes_time (e : Engine) (o : Owner) : e.regulatorTakes o (.plain .time) = e := by
  cases o <;> simp [Engine.regulatorTakes, Ending.plain]
  cases h : e.crg.state <;> simp [RegState.afterEnd, Engine.putRegState, ← h]

/-- The spare serves no role. -/
theorem mapped_ne_spare {e : Engine} {straps : Straps} {x : OutputNo} (h : e.ost.spare straps = some x) (r : Role) :
    e.mapped r ≠ x := by
  unfold OutputStage.spare at h
  have h1 := List.find?_some h
  simp only [Bool.and_eq_true, Option.isNone_iff_eq_none] at h1
  have h2 := h1.2
  unfold OutputStage.served at h2
  rw [List.find?_eq_none] at h2
  simpa [Engine.mapped] using h2 r (by cases r <;> decide)

end Sys2Proof.Machine
end

