-- ==== Sys2Proof/Laws/ScanEnd.lean ====
section
/-! SUPPORT. What a scan end makes of one zone (R137, R144, R147, R148): its new state, and on a change its report and the trigger of its trip record; everything else in the scan end leaves these alone. -/

namespace Sys2Proof.Machine

open Sys2Proof

/-- A report with a key stands in a queue. -/
def Stands (q : List Report) (k : ReportKey) : Prop := ∃ r ∈ q, r.key = k

theorem stands_handReport {q : List Report} {k : ReportKey} (h : Stands q k) (b : ReportBody) : Stands (handReport q b) k := by
  have : k ∈ (handReport q b).map Report.key := by
    rw [keys_handReport]
    obtain ⟨r, hr, hk⟩ := h
    have hm : k ∈ q.map Report.key := List.mem_map.2 ⟨r, hr, hk⟩
    split
    · exact hm
    · exact List.mem_append_left _ hm
  obtain ⟨r, hr, hk⟩ := List.mem_map.1 this
  exact ⟨r, hr, hk⟩

theorem stands_own (q : List Report) (b : ReportBody) : Stands (handReport q b) b.key := by
  have : b.key ∈ (handReport q b).map Report.key := by
    rw [keys_handReport]
    split
    · rename_i h; exact (standsIn_iff _ _).1 h
    · simp
  obtain ⟨r, hr, hk⟩ := List.mem_map.1 this
  exact ⟨r, hr, hk⟩

/-- What everything but the judgement of one zone leaves of it: its state, the trigger of its trip record, and its report in the queue. -/
structure KeepsTrip (z : Zone) (a b : Engine) : Prop where
  state : (b.zone z).state = (a.zone z).state
  trigger : (b.zone z).trip.trigger = (a.zone z).trip.trigger
  hottest : (b.zone z).trip.hottest = (a.zone z).trip.hottest
  coldest : (b.zone z).trip.coldest = (a.zone z).trip.coldest
  report : Stands a.reports (.zone z) → Stands b.reports (.zone z)

theorem KeepsTrip.same {z : Zone} {a b : Engine} (h : b.zones = a.zones) (k : b.reports = a.reports) : KeepsTrip z a b := by
  have hz : b.zone z = a.zone z := by unfold Engine.zone; rw [h]
  exact ⟨by rw [hz], by rw [hz], by rw [hz], by rw [hz], by rw [k]; exact id⟩

theorem KeepsTrip.trans {z : Zone} {a b c : Engine} (h : KeepsTrip z a b) (k : KeepsTrip z b c) : KeepsTrip z a c :=
  ⟨k.state.trans h.state, k.trigger.trans h.trigger, k.hottest.trans h.hottest, k.coldest.trans h.coldest,
    fun x => k.report (h.report x)⟩

/-- A change of a zone's record that keeps the state and the trigger of the one watched. -/
theorem KeepsTrip.putZone {z : Zone} (e : Engine) (y : Zone) (x : ZoneRec)
    (h : y = z → x.state = (e.zone z).state ∧ x.trip.trigger = (e.zone z).trip.trigger
      ∧ x.trip.hottest = (e.zone z).trip.hottest ∧ x.trip.coldest = (e.zone z).trip.coldest) :
    KeepsTrip z e (e.putZone y x) := by
  by_cases hy : y = z
  · subst hy
    obtain ⟨h1, h2, h3, h4⟩ := h rfl
    exact ⟨by simpa using h1, by simpa using h2, by simpa using h3, by simpa using h4, id⟩
  · have hz : (e.putZone y x).zone z = e.zone z := Engine.zone_putZone_ne e x hy
    exact ⟨by rw [hz], by rw [hz], by rw [hz], by rw [hz], id⟩

theorem keepsTrip_base (z : Zone) : Base (KeepsTrip z) where
  refl _ := .same rfl rfl
  trans := .trans
  putChannel _ _ _ := .same rfl rfl
  putMar _ _ := .same rfl rfl
  putValve _ _ _ := .same rfl rfl
  setCircuit _ _ := .same rfl rfl
  putRegState _ _ := .same rfl rfl
  hand _ _ := ⟨rfl, rfl, rfl, rfl, fun h => stands_handReport h _⟩
  setOutcome e _ _ := .putZone e _ _ (fun h => by subst h; exact ⟨rfl, rfl, rfl, rfl⟩)
  clearPending e _ := .putZone e _ _ (fun h => by subst h; exact ⟨rfl, rfl, rfl, rfl⟩)

theorem keepsTrip_pends (z : Zone) : Pends (KeepsTrip z) where
  toBase := keepsTrip_base z
  setPending e _ := .putZone e _ _ (fun h => by subst h; exact ⟨rfl, rfl, rfl, rfl⟩)

theorem keepsTrip_drives (z : Zone) : Drives (KeepsTrip z) where
  toBase := keepsTrip_base z
  putMeter _ _ _ := .same rfl rfl
  putOst _ _ := .same rfl rfl

theorem keepsTrip_wakeUp (z : Zone) (e : Engine) : KeepsTrip z e e.wakeUp := .same (by simp) (by simp)

theorem keepsTrip_verdicts (z : Zone) (e : Engine) (t : Tables) (r : Bank Reading 6) : KeepsTrip z e (e.verdicts t r) :=
  have := keepsTrip_base z
  (Via.foldl (R := KeepsTrip z) _ (fun e y => ⟨.putZone e y _ (fun h => by subst h; exact ⟨rfl, rfl, rfl, rfl⟩)⟩) _ _).it

/-- What a trip does after the trip record has been written leaves the zone watched as it is. -/
theorem keepsTrip_afterTrigger (z : Zone) (e : Engine) (t : Tables) (y : Zone) (st : ZoneState) (b : Bool) :
    KeepsTrip z e ((match (t.zone y).reserve with
      | none => e.endOffenders t (Engine.grantScan t) y st
      | some x => if b then (e.endOffenders t (Engine.grantScan t) y st).reserveDue t (Engine.grantScan t) y x
          else e.endOffenders t (Engine.grantScan t) y st).handZone y) := by
  have := keepsTrip_pends z
  have h1 : Via (KeepsTrip z) e (e.endOffenders t (Engine.grantScan t) y st) := via_endOffenders (via_grantScan t) _ _ _ _
  refine (Via.trans ?_ (via_handZone _ _)).it
  split
  · exact h1
  · split
    · exact h1.trans (via_reserveDue (via_grantScan t) _ _ _ _)
    · exact h1

/-- The judgement of another zone. -/
theorem keepsTrip_judgeOther {z y : Zone} (h : y ≠ z) (t : Tables) (r : Bank Reading 6) (e : Engine) :
    KeepsTrip z e (Engine.judgeZone t (Engine.grantScan t) r e y) := by
  have := keepsTrip_pends z
  unfold Engine.judgeZone
  dsimp only
  split
  · exact .same rfl rfl
  · split
    · unfold Engine.returnNormal
      exact KeepsTrip.trans (.putZone e y _ (fun k => absurd k h)) ((via_dropPending _ _).trans (via_handZone _ _)).it
    · unfold Engine.enterTrip
      exact ((keepsTrip_wakeUp z e).trans (.putZone _ y _ (fun k => absurd k h))).trans (keepsTrip_afterTrigger z _ t y _ _)

/-- What the judgement of a zone leaves of it (R137, R144, R147, R148). -/
structure JudgedZone (z : Zone) (st : ZoneState) (r : Reading) (a b : Engine) : Prop where
  state : (b.zone z).state = st
  report : st ≠ (a.zone z).state → Stands b.reports (.zone z)
  trigger : st ≠ (a.zone z).state → st ≠ .normal → (b.zone z).trip.trigger = some st
  hottest : st ≠ (a.zone z).state → st ≠ .normal → (b.zone z).trip.hottest = if st = .blind then none else r.hottest
  coldest : st ≠ (a.zone z).state → st ≠ .normal → (b.zone z).trip.coldest = if st = .blind then none else r.coldest

theorem judgedZone_judgeZone (z : Zone) (t : Tables) (r : Bank Reading 6) (e : Engine) :
    JudgedZone z (zoneNext (t.zone z).limits (Bank.nth r z.idx) (e.zone z).state) (Bank.nth r z.idx) e
      (Engine.judgeZone t (Engine.grantScan t) r e z) := by
  unfold Engine.judgeZone
  dsimp only
  generalize zoneNext (t.zone z).limits (Bank.nth r z.idx) (e.zone z).state = st
  split
  · rename_i h
    exact ⟨h.symm, fun k => absurd h k, fun k => absurd h k, fun k => absurd h k, fun k => absurd h k⟩
  · rename_i h
    split
    · rename_i hn
      subst hn
      refine ⟨?_, fun _ => stands_own _ _, fun _ k => absurd rfl k, fun _ k => absurd rfl k, fun _ k => absurd rfl k⟩
      unfold Engine.returnNormal Engine.handZone
      have := keepsTrip_base z
      have := (via_dropPending (R := KeepsTrip z) (e.putZone z { e.zone z with state := .normal }) z).it.state
      exact this.trans (by simp)
    · have hk := keepsTrip_afterTrigger z (e.wakeUp.trigger z st (Bank.nth r z.idx)) t z st
        (startFallsDue st ((e.wakeUp.trigger z st (Bank.nth r z.idx)).zone z).trip.outcome)
      refine ⟨hk.state.trans ?_, fun _ => stands_own _ _, fun _ _ => hk.trigger.trans ?_, fun _ _ => hk.hottest.trans ?_,
        fun _ _ => hk.coldest.trans ?_⟩ <;> simp [Engine.trigger]

/-- All zones judged: the others leave a zone as it is, and its own judgement is that of its state and reading. -/
theorem judgedZone_judgeZones (z : Zone) (t : Tables) (r : Bank Reading 6) (e : Engine) :
    JudgedZone z (zoneNext (t.zone z).limits (Bank.nth r z.idx) (e.zone z).state) (Bank.nth r z.idx) e
      (e.judgeZones t (Engine.grantScan t) r) := by
  have := keepsTrip_base z
  obtain ⟨i, hi, ha, hb⟩ : ∃ i : Fin 6, Zone.all = Zone.all.take i ++ z :: Zone.all.drop (i + 1)
      ∧ z ∉ Zone.all.take i ∧ z ∉ Zone.all.drop (i + 1) := by cases z <;> decide
  have fold : ∀ (l : List Zone), z ∉ l → ∀ e, KeepsTrip z e (l.foldl (Engine.judgeZone t (Engine.grantScan t) r) e) := by
    intro l
    induction l with
    | nil => exact fun _ e => .same rfl rfl
    | cons y l ih =>
      intro hl e
      rw [List.mem_cons, not_or] at hl
      rw [List.foldl_cons]
      exact (keepsTrip_judgeOther (fun k => hl.1 k.symm) t r e).trans (ih hl.2 _)
  unfold Engine.judgeZones
  rw [hi, List.foldl_append, List.foldl_cons]
  have h1 := fold _ ha e
  have h2 := judgedZone_judgeZone z t r ((Zone.all.take i).foldl (Engine.judgeZone t (Engine.grantScan t) r) e)
  rw [h1.state] at h2
  have h3 := fold _ hb (Engine.judgeZone t (Engine.grantScan t) r ((Zone.all.take i).foldl (Engine.judgeZone t (Engine.grantScan t) r) e) z)
  exact ⟨h3.state.trans h2.state, fun k => h3.report (h2.report (by rw [h1.state]; exact k)),
    fun k n => h3.trigger.trans (h2.trigger (by rw [h1.state]; exact k) n),
    fun k n => h3.hottest.trans (h2.hottest (by rw [h1.state]; exact k) n),
    fun k n => h3.coldest.trans (h2.coldest (by rw [h1.state]; exact k) n)⟩

/-- What comes before and after the judgement of the zones leaves a judged zone as it is. -/
theorem JudgedZone.within {z : Zone} {st : ZoneState} {r : Reading} {a b c d : Engine} (h : JudgedZone z st r b c)
    (h1 : KeepsTrip z a b) (h2 : KeepsTrip z c d) : JudgedZone z st r a d :=
  ⟨h2.state.trans h.state, fun k => h2.report (h.report (by rw [h1.state]; exact k)),
    fun k n => h2.trigger.trans (h.trigger (by rw [h1.state]; exact k) n),
    fun k n => h2.hottest.trans (h.hottest (by rw [h1.state]; exact k) n),
    fun k n => h2.coldest.trans (h.coldest (by rw [h1.state]; exact k) n)⟩

/-- A full scan's end judges every zone (R137). -/
theorem judgedZone_fullScanEnd (z : Zone) (e : Engine) (t : Tables) (x : ScanInput) :
    JudgedZone z (zoneNext (t.zone z).limits (Bank.nth x.readings z.idx) (e.zone z).state) (Bank.nth x.readings z.idx) e
      (e.fullScanEnd t x) := by
  have := keepsTrip_drives z
  have := keepsTrip_pends z
  have hk := via_grantScan (R := KeepsTrip z) t
  have key : ∀ e0 f b, KeepsTrip z e e0 →
      JudgedZone z (zoneNext (t.zone z).limits (Bank.nth x.readings z.idx) (e.zone z).state) (Bank.nth x.readings z.idx) e
        (e0.judgeWork t x f b) := by
    intro e0 f b h0
    unfold Engine.judgeWork
    dsimp only
    have h1 := h0.trans (via_channelsWork e0 t f b x.order.channelsFirst).it
    have h2 := judgedZone_judgeZones z t x.readings (e0.channelsWork t f b x.order.channelsFirst)
    rw [h1.state] at h2
    refine h2.within h1 ?_
    split
    · exact ((via_comfortJudge hk _ _ _ _).trans (via_channelsWork _ _ _ _ _)).it
    · exact ((via_channelsWork _ _ _ _ _).trans (via_comfortJudge hk _ _ _ _)).it
  have h2 : KeepsTrip z e (((e.verdicts t x.readings).equalizeFall 1).judgeMeters t (Engine.grantScan t)
      (fun m => Bank.nth x.meters m.idx)).1 :=
    (keepsTrip_verdicts z e t x.readings).trans ((via_equalizeFall _ _).trans (via_judgeMeters hk _ _ _)).it
  have h3 := h2.trans (via_whenReady
    (fun e => whenWithin x.order.due (Engine.allValvesArrive t) (e.readFeedback t.straps x.feedback))
    (fun _ => (via_readFeedback _ _ _).trans (via_whenWithin _ _ (via_allValvesArrive t) _)) _).it
  have hj : Vias (KeepsTrip z) (whenReady (Engine.judgeOutputs t x.order.due)) := via_whenReady _ (via_judgeOutputs t _)
  have hd : Vias (KeepsTrip z) (whenReady (fun e => e.driveOutputs t.straps)) :=
    via_whenReady _ (fun _ => via_driveOutputs _ _)
  have hv : Vias (KeepsTrip z) (whenReady (whenWithin x.order.due (fun e => (e.handOverEnds).valvesDue t))) :=
    via_whenReady _ (via_whenWithin _ _ (fun _ => (via_handOverEnds _).trans (via_valvesDue t _)))
  have hh : Vias (KeepsTrip z) (whenWithin x.order.due (Engine.allHoldsExpire t)) := via_whenWithin _ _ (via_allHoldsExpire t)
  have hq : Vias (KeepsTrip z) (whenWithin x.order.due (Engine.equalizeIfOver t)) := via_whenWithin _ _ (via_equalizeIfOver t)
  unfold Engine.fullScanEnd
  dsimp only
  cases x.order.faultsFirst with
  | true =>
    exact (key _ _ _ (h3.trans (hj _).it)).within (.same rfl rfl) ((((hh _).trans (hd _)).trans (hv _)).trans (hq _)).it
  | false =>
    exact (key _ _ _ h3).within (.same rfl rfl) (((((hh _).trans (hj _)).trans (hd _)).trans (hv _)).trans (hq _)).it

/-- A parked scan's end judges every zone (R6, R137). -/
theorem judgedZone_superviseZones (z : Zone) (e : Engine) (t : Tables) (r : Bank Reading 6) :
    JudgedZone z (zoneNext (t.zone z).limits (Bank.nth r z.idx) (e.zone z).state) (Bank.nth r z.idx) e (e.superviseZones t r) := by
  have h1 := keepsTrip_verdicts z e t r
  have h2 := judgedZone_judgeZones z t r (e.verdicts t r)
  rw [h1.state] at h2
  exact h2.within h1 (.same rfl rfl)

end Sys2Proof.Machine
end

