-- ==== Sys2Proof/WellFormed.lean ====
section
/-! DEFINITION. Which commands can be sent at all: operands that fit the field a frame carries them in and are not its absent mark (R183, R187), a frame whose body a frame can carry, an input value that fits its two bytes, a panel line of the kind its row names (R163, R164), a scan order that names no channel twice. -/

namespace Sys2Proof

open Sys2Proof.Machine

/-- A number that one byte carries. -/
def fitsByte (n : Nat) : Bool := decide (n < 256)

/-- A number that two bytes carry (R183). -/
def fitsHalf (n : Nat) : Bool := decide (n < 65536)

/-- A signed number that two bytes carry (R183). -/
def fitsSigned (v : Int) : Bool := decide (-32768 ≤ v ∧ v < 32768)

/-- A character that stays in a panel line: neither carriage return nor line feed (R163). -/
def lineChar (b : Byte) : Bool := b ≠ 0x0D && b ≠ 0x0A

/-- The fields of a path write fit their bytes. -/
def PathWrite.fits : PathWrite → Bool
  | .empty | .badKind => true
  | .defined p =>
    fitsByte p.source && fitsByte p.sink && fitsByte p.meter && fitsByte p.sense && fitsHalf p.capacity
    && fitsByte p.regime && fitsByte p.mode && p.roles.all (fun x => fitsByte x.1 && fitsByte x.2)
    && p.valves.all (fun x => fitsByte x.1 && fitsByte x.2) && fitsByte p.gain && fitsByte p.leadOffset
    && fitsByte p.runDown

/-- A number that one byte carries in a field that can be absent: all ones marks absent (R183). -/
def fitsMaybeByte (n : Nat) : Bool := decide (n < 255)

/-- An optional temperature fits its two bytes: 8000 hexadecimal marks absent (R183). -/
def fitsTemp : Option Int → Bool
  | none => true
  | some v => fitsSigned v && decide (v ≠ -32768)

/-- The requests whose body is empty, by kind (R183). -/
def withoutArguments : List Byte := [0x01, 0x02, 0x13, 0x30, 0x42, 0x53, 0x55, 0x56, 0x57, 0x58]

/-- The length that R188 gives a WRITE SEGMENTS body. -/
def segmentLength (body : List Byte) : Bool :=
  match body with
  | _ :: count :: rest => decide (rest.length = 10 * count.toNat)
  | _ => false

/-- A request's frame: a body of at most 120 bytes (R187), and what is said of its length true where the spec gives the length (R181, R183, R188). -/
def requestFits (kind : Byte) (f : Frame) : Bool :=
  decide (f.body.length ≤ 120)
  && (!withoutArguments.contains kind || f.lengthFits == f.body.isEmpty)
  && (kind ≠ 0x20 || f.lengthFits == segmentLength f.body)

/-- The groups of a zone write fit their bytes. -/
def ZoneWrite.fits (w : ZoneWrite) : Bool :=
  (match w.limits with
    | none => true
    | some l => fitsTemp l.softLow && fitsTemp l.softHigh && fitsTemp l.hardLow && fitsTemp l.hardHigh
        && fitsSigned l.hysteresis)
  && (match w.access with
    | none => true
    | some (a, b) => a.all fitsByte && b.all fitsByte)
  && (match w.reserve with
    | none => true
    | some (c, s) => c.all fitsMaybeByte && s.all fitsMaybeByte)

/-- The values of a tuning set fit their fields. -/
def Tuning.fits (t : Tuning) : Bool :=
  fitsHalf t.prefetchMargin && fitsByte t.meterHold && fitsByte t.valveTimeout && fitsByte t.equalizeTime
  && fitsHalf t.parkDelay && fitsHalf t.leadThreshold && fitsByte t.leadTime && fitsByte t.coolant
  && fitsByte t.handOverTime

/-- The settings of a COMFORT ON fit their fields. -/
def RawComfort.fits (r : RawComfort) : Bool :=
  r.heatPath.all fitsMaybeByte && r.coolPath.all fitsMaybeByte && fitsByte r.deadband && fitsByte r.gain
  && fitsHalf r.waitLimit

/-- The operands of a command fit. -/
def Instr.operandsFit : Instr → Bool
  | .startOrder _ channel slot cls tag limit =>
    fitsByte channel && fitsByte slot && fitsByte cls && fitsHalf tag && fitsHalf limit
  | .haltOrder _ channel | .queryChannel _ channel => fitsByte channel
  | .writeSegments f body => decide (body = f.body)
  | .readSegments _ first count => fitsByte first && fitsByte count
  | .writePath _ entry write => fitsByte entry && write.fits
  | .readPath _ entry => fitsByte entry
  | .writeZone _ zone write => fitsByte zone && write.fits
  | .readZone _ zone => fitsByte zone
  | .writeSensorMap _ entries => decide (entries.length ≤ 120) && entries.all (fun e => fitsByte e.input)
  | .checksum _ _ first last => fitsByte first && fitsByte last
  | .testOutput _ (.output n) | .testOutput _ (.valve n) => fitsByte n
  | .setCabinTarget _ h => fitsSigned (h / 10)
  | .comfortOn _ (some r) => r.fits
  | .setTuning _ t _ => t.fits
  | .setPathWindow _ (some (a, b)) => fitsByte a && fitsByte b
  | .unknownRequest kind f => !catalogue.contains kind && decide (f.body.length ≤ 120)
  | .busy _ f => decide (f.body.length ≤ 120)
  | .sensorRead _ (.number v) => fitsSigned v
  | .scanEnd feedback order =>
    feedback.outputs.toList.all (fun f => fitsHalf f.current && fitsHalf f.speed)
    && feedback.valves.toList.all fitsTemp
    && decide order.channelsFirst.Nodup
  | .panelTargetLine rest => rest.all lineChar && decide (rest.length ≤ 14)
  | .panelBadLine line => line.all lineChar && !line.isEmpty && decide (line ≠ [0x51])
  | .panelLineTimeout before after => before.all (· ≠ 0x0D) && after.all (· ≠ 0x0D)
  | _ => true

/-- Whether a command can be sent. -/
def Instr.wellFormed (i : Instr) : Bool :=
  i.operandsFit && (match requestOf i with | none => true | some (kind, f) => requestFits kind f)

end Sys2Proof
end

