-- ==== Sys2Proof/Tests/Slice0.lean ====
section
/-! SUPPORT. Small tests: commands that cannot be sent, figures the spec works out, and for each statement of Certificates/Slice0 a state and operands that meet its hypotheses, clause by clause. -/

namespace Sys2Proof.Tests

open Sys2Proof Sys2Proof.Machine

/-! ## Small states -/

def fr : Frame := ⟨7, [], true⟩
def badFr : Frame := ⟨7, [0], false⟩
def longBody : List Byte := List.replicate 121 0

/-- A READY part with lockout clear and the default tables. -/
def base : State :=
  { State.reset with
    eng := { State.reset.eng with part := .ready }
    cfc := { State.reset.cfc with lockout := false } }

def path0 : PathEntry :=
  ⟨.battery, .drive, .mBatt, .positive, 100, .passive, .none, [(.pumpBatt, 50)], [(0, 40)], 10, 0, 5⟩

def noFlags : SegFlags := ⟨false, false, false, false, false⟩

def seg0 : Transfer := ⟨0, 100, 50, 10, 3, noFlags⟩

/-- `base` with path P0 and a TRANSFER in slots 0 and 80. -/
def plant : State :=
  base.putTables { base.tab with
    paths := Bank.put base.tab.paths 0 (some path0)
    slots := Bank.put (Bank.put base.tab.slots 0 (.transfer seg0)) 80 (.transfer seg0) }

def order0 (p : Phase) : Order := { newOrder .host 1 2 (some 0) (copyOf 0 seg0) 0 with phase := p }

/-- `plant` with an order on channel 0. -/
def with0 (o : Order) : State := plant.putEngine (plant.eng.putOrder 0 (some o))

def inMode (s : State) (m : Mode) : State := s.putControl { s.cfc with mode := m }
def inPart (s : State) (p : PartState) : State := s.putEngine { s.eng with part := p }
def withReports (q : List Report) : State := base.putEngine { base.eng with reports := q }
def withScan (s : State) (k : ScanKind) (l : List InputNo) : State := { s with sbe := { s.sbe with scan := some ⟨k, l⟩ } }
def withOutput (o : OutputNo) (x : OutputRec) : State := base.putEngine (base.eng.putOutput o x)
def withValve (s : State) (v : ValveNo) (x : ValveRec) : State := s.putEngine (s.eng.putValve v x)
def withZone (s : State) (z : Zone) (x : ZoneRec) : State := s.putEngine (s.eng.putZone z x)
def withMeter (s : State) (m : Meter) (x : MeterRec) : State := s.putEngine (s.eng.putMeter m x)
def withCondition (s : State) (c : Condition) : State :=
  s.putEngine { s.eng with mar := { s.eng.mar with comp := ⟨none, c⟩ } }
def parkedWith (n : Nat) : State := withCondition (inPart base .parked) (.equalizing .cool n)

def reply0 (resets : Bool) : TxReply := ⟨0x81, 7, .ok, .none, true, resets⟩
def sendingState (s : State) (waiting : Option TxReply) (resets : Bool) : State :=
  s.putLink ⟨.hunting, .taken, some (reply0 resets), waiting⟩

def endedRec (c : ChannelNo) : Record := ⟨c, 1, 2, .plain .complete, some 0, some 0, 1000, 20, ⟨false, false, 0⟩⟩
def zoneRep : ReportBody := .zone ⟨.cabin, some .blind, .blind, none, none, .none⟩

def downTo (x : Purpose) (timer : Nat) : RunDown := ⟨x, timer, 50, Vector.replicate 8 0, false⟩
def halted : Purpose := .endWith (.plain .halted)

def quietFeedback : Feedback := ⟨Vector.replicate 9 ⟨0, 0⟩, Vector.replicate 6 (some 40)⟩
def separate : ScanOrder := ⟨[], false, false, .separate⟩

/-! ## Commands that cannot be sent -/

theorem test_wf_numbers :
    (Instr.startOrder fr 256 0 1 0 0).wellFormed = false ∧ (Instr.startOrder fr 0 256 1 0 0).wellFormed = false
    ∧ (Instr.startOrder fr 0 0 256 0 0).wellFormed = false ∧ (Instr.startOrder fr 0 0 1 65536 0).wellFormed = false
    ∧ (Instr.startOrder fr 0 0 1 0 65536).wellFormed = false ∧ (Instr.haltOrder fr 256).wellFormed = false
    ∧ (Instr.queryChannel fr 256).wellFormed = false ∧ (Instr.readSegments fr 256 1).wellFormed = false
    ∧ (Instr.readSegments fr 0 256).wellFormed = false ∧ (Instr.readPath fr 256).wellFormed = false
    ∧ (Instr.readZone fr 256).wellFormed = false ∧ (Instr.checksum fr .zones 256 0).wellFormed = false
    ∧ (Instr.checksum fr .zones 0 256).wellFormed = false ∧ (Instr.testOutput fr (.output 256)).wellFormed = false
    ∧ (Instr.testOutput fr (.valve 256)).wellFormed = false := by decide

theorem test_wf_writes :
    (Instr.writeSegments fr [0, 0]).wellFormed = false
    ∧ (Instr.writePath fr 256 .empty).wellFormed = false
    ∧ (Instr.writePath fr 0 (.defined ⟨256, 0, 0, 0, 0, 0, 0, [], [], 0, 0, 0⟩)).wellFormed = false
    ∧ (Instr.writePath fr 0 (.defined ⟨0, 0, 0, 0, 65536, 0, 0, [], [], 0, 0, 0⟩)).wellFormed = false
    ∧ (Instr.writePath fr 0 (.defined ⟨0, 0, 0, 0, 0, 0, 0, [(256, 0)], [], 0, 0, 0⟩)).wellFormed = false
    ∧ (Instr.writeZone fr 256 ⟨none, none, none⟩).wellFormed = false
    ∧ (Instr.writeZone fr 0 ⟨some ⟨some 32768, none, none, none, 0⟩, none, none⟩).wellFormed = false
    ∧ (Instr.writeZone fr 0 ⟨none, some ([256], []), none⟩).wellFormed = false
    ∧ (Instr.writeZone fr 0 ⟨none, none, some (some 256, none)⟩).wellFormed = false
    ∧ (Instr.writeSensorMap fr [⟨256, .unused⟩]).wellFormed = false
    ∧ (Instr.writeSensorMap fr (List.replicate 121 ⟨0, .unused⟩)).wellFormed = false := by decide +kernel

theorem test_wf_settings :
    (Instr.setCabinTarget fr 327680).wellFormed = false
    ∧ (Instr.comfortOn fr (some ⟨some 256, none, 0, 0, 0⟩)).wellFormed = false
    ∧ (Instr.setTuning fr { defaultTuning with meterHold := 256 } false).wellFormed = false
    ∧ (Instr.setPathWindow fr (some (256, 0))).wellFormed = false
    ∧ (Instr.unknownRequest 0x01 ⟨7, []⟩).wellFormed = false := by decide

/-- R183: FF and 8000 hexadecimal mark an absent field, so no field that is present carries them. -/
theorem test_wf_absent :
    (Instr.comfortOn fr (some ⟨some 255, none, 0, 0, 0⟩)).wellFormed = false
    ∧ (Instr.comfortOn fr (some ⟨none, some 255, 0, 0, 0⟩)).wellFormed = false
    ∧ (Instr.writeZone fr 0 ⟨some ⟨none, none, some (-32768), none, 0⟩, none, none⟩).wellFormed = false
    ∧ (Instr.writeZone fr 0 ⟨none, none, some (some 255, some 80)⟩).wellFormed = false
    ∧ (Instr.writeZone fr 0 ⟨none, none, some (some 1, some 255)⟩).wellFormed = false
    ∧ (Instr.scanEnd ⟨Vector.replicate 9 ⟨0, 0⟩, Vector.replicate 6 (some (-32768))⟩ separate).wellFormed = false
    ∧ (Instr.comfortOn fr (some ⟨some 254, none, 0, 0, 0⟩)).wellFormed = true := by decide

/-- R187: a body of 121 bytes goes into no frame, and what a frame says of its length is true where the spec gives the length. -/
theorem test_wf_frames :
    (Instr.haltOrder ⟨7, longBody, true⟩ 0).wellFormed = false ∧ (Instr.unknownRequest 0x7F ⟨7, longBody⟩).wellFormed = false
    ∧ (Instr.busy 0x01 ⟨7, longBody⟩).wellFormed = false ∧ (Instr.identify ⟨7, [0], true⟩).wellFormed = false
    ∧ (Instr.reset ⟨7, [], false⟩).wellFormed = false ∧ (Instr.writeSegments ⟨7, [0, 1], true⟩ [0, 1]).wellFormed = false
    ∧ (Instr.identify badFr).wellFormed = true ∧ (Instr.haltOrder fr 0).wellFormed = true := by decide +kernel

theorem test_wf_events :
    (Instr.sensorRead 0 (.number 32768)).wellFormed = false
    ∧ (Instr.scanEnd ⟨Vector.replicate 9 ⟨65536, 0⟩, Vector.replicate 6 none⟩ separate).wellFormed = false
    ∧ (Instr.scanEnd ⟨Vector.replicate 9 ⟨0, 0⟩, Vector.replicate 6 (some 32768)⟩ separate).wellFormed = false
    ∧ (Instr.scanEnd quietFeedback ⟨[0, 0], false, false, .within⟩).wellFormed = false
    ∧ (Instr.panelTargetLine [0x0D]).wellFormed = false ∧ (Instr.panelTargetLine (List.replicate 15 0x30)).wellFormed = false
    ∧ (Instr.panelBadLine []).wellFormed = false ∧ (Instr.panelBadLine [0x51]).wellFormed = false
    ∧ (Instr.panelBadLine [0x0A]).wellFormed = false ∧ (Instr.panelLineTimeout [0x0D] []).wellFormed = false
    ∧ (Instr.panelLineTimeout [] [0x0D]).wellFormed = false := by decide

/-! ## Figures the spec works out -/

/-- R177: the CRC of "123456789" is 29B1. -/
theorem test_crc : crc16 [0x31, 0x32, 0x33, 0x34, 0x35, 0x36, 0x37, 0x38, 0x39] = 0x29B1 := by decide +kernel

/-- R15: 20 litres per minute over 5 kelvins with the constant 3.6 give 6.0 kilowatts; halves round away from zero. -/
theorem test_meter_rate : meterRate 200 36 250 200 = 60 ∧ meterRate 200 36 200 250 = -60
    ∧ scanHeat 3 60 = (6, 3) ∧ scanHeat (-3) (-60) = (-6, -3) := by decide

/-- R188: a segment body as the layout gives it. -/
theorem test_segment_bytes : segmentBytes (.transfer seg0) = [1, 0, 0, 100, 0, 50, 0, 10, 3, 0]
    ∧ segmentBytes (.jump 95) = [2, 95, 0, 0, 0, 0, 0, 0, 0, 0] ∧ segmentOf [3, 0, 0, 0, 0, 0, 0, 0, 0, 0] = none := by decide

/-- R164: the query reply "T=19.5 C=18.2 M=HEAT". -/
theorem test_query_reply : queryReply 195 (some 182) (.active .heating)
    = [0x54, 0x3D, 0x31, 0x39, 0x2E, 0x35, 0x20, 0x43, 0x3D, 0x31, 0x38, 0x2E, 0x32, 0x20, 0x4D, 0x3D, 0x48, 0x45, 0x41, 0x54] := by
  decide +kernel

/-- R187: a frame's length, kind, sequence number and body at their offsets; the receiver finds them in the bytes one by one. -/
theorem test_receiver :
    requestFrame 0x11 7 [3] = 0xA5 :: [1, 0x11, 7, 3] ++ be16 (crc16 [1, 0x11, 7, 3]).toNat
    ∧ (RxState.receiving (requestInner 0x11 7 [3] ++ [(be16 (crc16 [1, 0x11, 7, 3]).toNat).head!]) false).take
        ⟨(be16 (crc16 [1, 0x11, 7, 3]).toNat).getLast!, false⟩ = (.hunting, .complete 0x11 7 [3])
    ∧ RxState.hunting.take ⟨0xA5, false⟩ = (.receiving [] false, .none) ∧ RxState.hunting.take ⟨0xA5, true⟩ = (.hunting, .none)
    ∧ (RxState.receiving [] false).take ⟨121, false⟩ = (.hunting, .failed) := by decide +kernel

/-- R184, R189: the bytes of a reply behind its code. -/
theorem test_reply_bytes :
    (⟨0x92, 7, .record, .record (endedRec 2), true, false⟩ : TxReply).body_ = ReplyCode.record.value :: recordBytes (endedRec 2)
    ∧ (recordBytes (endedRec 2)).length = 25 := by decide +kernel

/-- R168: counts stop at 255. -/
theorem test_count_stops : bumpCount 254 = 255 ∧ bumpCount 255 = 255 := by decide

/-- No word spells a command of this table. -/
theorem test_no_word : decodeTableWord 8 1 = none := rfl

/-! ## Witnesses: the step, reset, start-up -/

theorem witness_StepRunsFront : ({ base with pending := [.scanStart, .replySent] } : State).pending = [.scanStart, .replySent] := rfl

theorem witness_IdleStep :
    (base.pending = [] ∧ base.eng.part ≠ .parked)
    ∧ (let s := withCondition (inPart base .parked) (.equalizing .cool 2);
      s.pending = [] ∧ s.run = .running ∧ s.eng.part = .parked ∧ s.eng.mar.comp.condition = .equalizing .cool 2 ∧ 1 < 2)
    ∧ ((parkedWith 1).eng.mar.comp.condition = .equalizing .cool 1 ∧ (parkedWith 1).run = .running)
    ∧ (inPart base .parked).eng.mar.comp.condition = .steady := by
  decide +kernel

theorem witness_SupplyAndPin : base.run = .running ∧ base.run ≠ .noSupply := by decide

def starting (load : Bool) (i : Option Image) : State := State.fresh ⟨load, false, false⟩ .cool i []

def badImage : Image := { defaultImage with map := Vector.replicate 32 (.meterFlow .mBatt) }

theorem witness_ImageInstalled : (starting true none).run = .running ∧ (starting true none).eng.part = .starting
    ∧ (starting true none).tab.straps.load = true ∧ imageOk defaultImage = true
    ∧ (starting true (some defaultImage)).stored = some defaultImage := by decide +kernel

theorem witness_DefaultsInstalled : (starting false none).tab.straps.load = false ∧ (starting true none).stored = none
    ∧ imageOk badImage = false ∧ (starting true (some badImage)).stored = some badImage := by decide +kernel

/-! ## Witnesses: frames and replies -/

theorem fr_fits : fitsFrame fr.body := Nat.zero_le _
theorem base_free : base.free := ⟨⟨rfl, rfl⟩, rfl, rfl⟩
theorem base_accepts : base.accepts fr := ⟨base_free, by decide, fr_fits, rfl⟩
theorem accepts_of {s : State} (h : s.run = .running ∧ s.link = LinkPort.initial ∧ s.eng.part ≠ .starting) : s.accepts fr :=
  ⟨⟨⟨h.1, by rw [h.2.1]; rfl⟩, by rw [h.2.1]; rfl, by rw [h.2.1]; rfl⟩, h.2.2, fr_fits, rfl⟩

theorem witness_BusyAndDiscarded :
    (let s := sendingState base none false;
      s.run = .running ∧ s.link.rx = .hunting ∧ s.link.slot = .taken ∧ s.link.waiting = none)
    ∧ (let s := sendingState base (some (reply0 false)) false;
      s.run = .running ∧ s.link.rx = .hunting ∧ s.link.waiting ≠ none)
    ∧ requestOf (.park fr) = some (0x57, fr) ∧ fr.body.length ≤ 120 := by decide +kernel

theorem witness_TurnedAwayByThePort :
    (State.reset.run = .running ∧ State.reset.link = ⟨.hunting, .free, none, none⟩ ∧ badFr.body.length ≤ 120)
    ∧ State.reset.eng.part = .starting ∧ requestOf (.fetchReport fr) = some (0x13, fr)
    ∧ requestOf (.identify badFr) = some (0x01, badFr) ∧ badFr.lengthFits = false ∧ base.eng.part ≠ .starting := by
  decide +kernel

theorem witness_EveryRequestAnswered : requestOf (.reset fr) = some (0x58, fr) ∧ base.free ∧ fitsFrame fr.body
    ∧ 4 < fr.body.length + 5 := ⟨rfl, base_free, fr_fits, by decide⟩

theorem witness_RequestsLeaveAlone : requestOf (.readStatus fr) = some (0x02, fr) ∧ ∃ t, exec (.readStatus fr) base = .next t :=
  ⟨rfl, _, rfl⟩

/-- Clause by clause: kinds of no request, a wrong CRC, a damaged byte, lengths above 120, noise, a frame cut before its last byte, what follows. -/
theorem witness_FramesOfNoRequest : catalogue.contains 0x7F = false ∧ catalogue.contains 0x80 = false ∧ base.free
    ∧ crc16 (requestInner 0x01 7 []) ≠ 0 ∧ 120 < (121 : Byte).toNat ∧ 120 < (255 : Byte).toNat
    ∧ ((requestFrame 0x01 7 []).tail.map (⟨·, true⟩ : Byte → RxByte)).map (·.value) = (requestFrame 0x01 7 []).tail
    ∧ (∀ x ∈ [(⟨0x00, false⟩ : RxByte), ⟨0x78, true⟩], x.value ≠ 0xA5) ∧ 5 < ([] : List Byte).length + 6
    ∧ ∃ t, exec (.frameError [⟨0xA5, false⟩, ⟨121, false⟩] []) base = .next t :=
  ⟨by decide, by decide, base_free, by decide +kernel, by decide, by decide, by decide +kernel, by decide, by decide, _, rfl⟩

theorem witness_ReplyLeaves : (sendingState base none false).run = .running
    ∧ (sendingState base none false).link.sending = some (reply0 false) ∧ (reply0 false).resets = false := ⟨rfl, rfl, rfl⟩

theorem witness_ResetAfterItsReply : base.accepts fr ∧ (sendingState base none true).run = .running
    ∧ (sendingState base none true).link.sending = some (reply0 true) ∧ (reply0 true).resets = true
    ∧ (reply0 true).ofSlot = true := ⟨base_accepts, rfl, rfl, rfl, rfl⟩

theorem witness_IdentifyAnswered : State.reset.free ∧ fitsFrame fr.body ∧ fr.lengthFits = true :=
  ⟨⟨⟨rfl, rfl⟩, rfl, rfl⟩, fr_fits, rfl⟩

theorem witness_StatusAnswered : State.reset.free ∧ fitsFrame fr.body ∧ fr.lengthFits = true :=
  ⟨⟨⟨rfl, rfl⟩, rfl, rfl⟩, fr_fits, rfl⟩

/-! ## Witnesses: orders and reports -/

theorem witness_StartOrderTaken : plant.accepts fr ∧ plant.eng.part = .ready ∧ plant.cfc.lockout = false
    ∧ plant.eng.crg.state = .disabled ∧ plant.eng.order 5 = none ∧ (plant.eng.channel 5).recordQueued = false
    ∧ plant.eng.fetchFirst plant.tab .host 3 0 = .ok (copyOf 0 seg0) :=
  ⟨accepts_of (by decide +kernel), rfl, rfl, rfl, rfl, rfl, rfl⟩

def compressorPath : PathEntry := { path0 with mode := .heat, roles := [(.compressor, 60), (.heater, 100)], valves := [(5, 70)] }
def compressorPlant : State :=
  (plant.putTables { plant.tab with paths := Bank.put plant.tab.paths 0 (some compressorPath) }).putEngine
    { plant.eng with mar := { plant.eng.mar with comp := ⟨some .cool, .steady⟩ } }

/-- The grant scan, clause by clause: every entry grantable, a set that waits on its mode alone, a first role without an output. -/
theorem witness_StartOrderTaken_grants :
    (plant.eng.mar.claims = [] ∧ plant.eng.mar.grants = [] ∧ plant.tab.entry (copyOf 0 seg0).path = path0
      ∧ (plant.eng.output (plant.eng.mapped .pumpBatt)).state = .inService ∧ (plant.eng.valve 0).state ≠ .faulted
      ∧ (.compressor, 50) ∉ path0.roles)
    ∧ (compressorPlant.eng.mar.claims = [] ∧ compressorPlant.tab.entry 0 = compressorPath
      ∧ compressorPlant.eng.mar.comp = ⟨some .cool, .steady⟩ ∧ compressorPath.mode.circuit = some .heat
      ∧ (compressorPlant.eng.output (compressorPlant.eng.mapped .compressor)).state = .inService
      ∧ (compressorPlant.eng.output (compressorPlant.eng.mapped .heater)).state = .inService
      ∧ sharesOn compressorPlant.eng.mar.grants .heater + 100 ≤ 100)
    ∧ ((plant.eng.putOutput 0 { OutputRec.initial with state := .testing }).output (plant.eng.mapped .pumpBatt)).state
      ≠ .inService := by decide +kernel

/-- That grant on `plant`: SETTING with the starting level of 25.0 percent, valve V1 commanded to 40. -/
theorem test_granted : ∃ t, exec (.startOrder fr 3 0 2 1 0) plant = .next t
    ∧ (t.eng.order 3).map (fun o => (o.phase, Bank.nth o.demands 0)) = some (.setting, 250)
    ∧ (t.eng.valve 0).commanded = some 40 ∧ t.eng.mar.grants.map (·.channel) = [3] ∧ t.eng.mar.claims = [] := by
  refine ⟨_, rfl, ?_⟩
  decide +kernel

theorem witness_StartOrderEnded : plant.accepts fr ∧ plant.eng.order 0 = none
    ∧ plant.eng.fetchFirst plant.tab .host 1 79 = .error (.program .emptySlot (some 79)) :=
  ⟨accepts_of (by decide +kernel), rfl, rfl⟩

/-- Clause by clause: a channel out of range, a WAKING part, lockout, the regulator on channel 5, a channel not IDLE. -/
theorem witness_StartOrderTurnedAway :
    base.accepts fr ∧ ¬ (6 ≤ 5) ∧ ((inPart base .waking).accepts fr ∧ (inPart base .waking).eng.part = .waking)
    ∧ ((inPart base .parked).accepts fr ∧ (inPart base .parked).eng.part = .parked)
    ∧ ((base.putControl State.reset.cfc).accepts fr ∧ (base.putControl State.reset.cfc).cfc.lockout = true)
    ∧ (let s := base.putEngine (base.eng.putRegState .held);
      s.accepts fr ∧ s.eng.crg.state ≠ .disabled ∧ s.cfc.lockout = false)
    ∧ (let s := with0 (order0 .waiting);
      s.accepts fr ∧ s.cfc.lockout = false ∧ ∀ k : ChannelNo, k.val = 0 → (s.eng.order k).isSome = true) :=
  ⟨base_accepts, by decide, ⟨accepts_of (by decide +kernel), rfl⟩, ⟨accepts_of (by decide +kernel), rfl⟩,
    ⟨accepts_of (by decide +kernel), rfl⟩, ⟨accepts_of (by decide +kernel), by decide +kernel, rfl⟩,
    ⟨accepts_of (by decide +kernel), rfl, by decide +kernel⟩⟩

/-- Clause by clause: no order, an order of class 0, one in WAITING, SETTING, RUNNING, and the two purposes of ENDING. -/
theorem witness_HaltOrder :
    base.accepts fr ∧ base.eng.order 0 = none
    ∧ (∀ o ∈ [{ order0 .running with cls := 0 }, order0 .waiting, order0 .setting, order0 .running,
        order0 (.ending (downTo .transition 9)), order0 (.ending (downTo halted 9))],
        (with0 o).accepts fr ∧ (with0 o).eng.order 0 = some o ∧ (with0 o).eng.part = .ready ∧ o.owner = .host
        ∧ 0 < ((with0 o).tab.entry o.copy.path).runDown * 10) := by
  refine ⟨base_accepts, rfl, fun o ho => ?_⟩
  simp only [List.mem_cons, List.not_mem_nil, or_false] at ho
  rcases ho with rfl | rfl | rfl | rfl | rfl | rfl <;>
    exact ⟨accepts_of (by decide +kernel), rfl, rfl, rfl, by decide +kernel⟩

theorem witness_QueryChannel :
    (let s := withReports [⟨zoneRep, 0⟩, ⟨.completion (endedRec 2), 0⟩];
      s.accepts fr ∧ s.eng.reports = [⟨zoneRep, 0⟩] ++ ⟨.completion (endedRec 2), 0⟩ :: [] ∧ (endedRec 2).channel = 2
      ∧ ∀ x ∈ [(⟨zoneRep, 0⟩ : Report)] ++ [], x.key ≠ .completion 2)
    ∧ ((with0 (order0 .running)).accepts fr ∧ (with0 (order0 .running)).eng.order 0 = some (order0 .running)
      ∧ ∀ x ∈ (with0 (order0 .running)).eng.reports, x.key ≠ .completion 0)
    ∧ base.eng.order 0 = none :=
  ⟨⟨accepts_of (by decide +kernel), rfl, rfl, by decide +kernel⟩,
    ⟨accepts_of (by decide +kernel), rfl, by decide +kernel⟩, rfl⟩

theorem witness_FetchReport : base.accepts fr ∧ base.eng.reports = []
    ∧ (withReports [⟨.completion (endedRec 2), 0⟩]).eng.reports = ⟨.completion (endedRec 2), 0⟩ :: []
    ∧ (withReports [⟨zoneRep, 3⟩]).eng.reports = ⟨zoneRep, 3⟩ :: [] ∧ ∀ c, (⟨zoneRep, 3⟩ : Report).key ≠ .completion c :=
  ⟨base_accepts, rfl, rfl, rfl, fun _ h => nomatch h⟩

/-! ## Witnesses: tables -/

theorem witness_WriteSegments :
    (base.accepts fr ∧ [Segment.transfer seg0].length ≤ 8 ∧ segmentOk (.transfer seg0) = true
      ∧ 79 + [Segment.transfer seg0].length ≤ 80 ∧ 95 + [Segment.transfer seg0].length ≤ 96)
    ∧ (let s := inMode base .commissioning;
      s.accepts fr ∧ s.cfc.locks.reserve = false ∧ s.cfc.mode = .commissioning)
    ∧ (let s := base.putControl { base.cfc with locks := ⟨false, false, true⟩ };
      s.accepts fr ∧ s.cfc.locks.reserve = true)
    ∧ base.cfc.locks.reserve = false ∧ base.cfc.mode = .operating :=
  ⟨⟨base_accepts, by decide, by decide, by decide, by decide⟩, ⟨accepts_of (by decide +kernel), rfl, rfl⟩,
    ⟨accepts_of (by decide +kernel), rfl⟩, rfl, rfl⟩

theorem witness_ReadSegments : base.accepts fr ∧ 95 + 1 ≤ 96 ∧ 88 + 8 ≤ 96 ∧ 96 < 95 + 2 := ⟨base_accepts, by decide⟩

def window0 : State := base.putControl { base.cfc with window := some (0, 0) }

theorem witness_PathTable :
    pathWriteOf .empty = some none
    ∧ (let s := inMode base .commissioning;
      s.accepts fr ∧ s.cfc.mode = .commissioning ∧ s.cfc.locks.path = false)
    ∧ (window0.accepts fr ∧ window0.cfc.mode = .operating ∧ window0.cfc.window = some (0, 0))
    ∧ (let s := (inMode base .commissioning).putControl { (inMode base .commissioning).cfc with locks := ⟨false, true, false⟩ };
      s.accepts fr ∧ s.cfc.mode = .commissioning ∧ s.cfc.locks.path = true)
    ∧ (base.cfc.mode = .operating ∧ base.cfc.window = none)
    ∧ (let s := inMode (with0 (order0 .running)) .commissioning;
      s.accepts fr ∧ s.cfc.mode = .commissioning ∧ s.eng.order 0 = some (order0 .running) ∧ (order0 .running).copy.path = 0) :=
  ⟨rfl, ⟨accepts_of (by decide +kernel), rfl, rfl⟩, ⟨accepts_of (by decide +kernel), rfl, rfl⟩,
    ⟨accepts_of (by decide +kernel), rfl, rfl⟩, ⟨rfl, rfl⟩, ⟨accepts_of (by decide +kernel), rfl, rfl, rfl⟩⟩

def noReserve : ZoneWrite := ⟨none, none, some (none, none)⟩
def newLimits : ZoneWrite := ⟨some ⟨some 50, some 400, some (-300), some 550, 30⟩, none, none⟩

theorem witness_ZoneTable :
    zoneChangeOf .battery noReserve = some ⟨none, none, some none⟩
    ∧ zoneChangeOf .battery newLimits = some ⟨some ⟨some 50, some 400, some (-300), some 550, 30⟩, none, none⟩
    ∧ (let s := inMode (withZone base .battery { ZoneRec.initial with pending := true }) .commissioning;
      s.accepts fr ∧ s.cfc.mode = .commissioning ∧ (s.eng.zone .battery).pending = true ∧ s.cfc.locks.limit = false)
    ∧ (let s := base.putControl { base.cfc with locks := ⟨true, false, false⟩ };
      s.accepts fr ∧ s.cfc.locks.limit = true)
    ∧ base.cfc.mode = .operating :=
  ⟨by decide +kernel, by decide +kernel, ⟨accepts_of (by decide +kernel), rfl, rfl, rfl⟩,
    ⟨accepts_of (by decide +kernel), rfl⟩, rfl⟩

/-- A zone whose reserve start is pending, in COMMISSIONING, with an order on its channel or none. -/
def pendingIn (part : PartState) (o : Option Order) : State :=
  inMode (withZone (inPart (plant.putEngine (plant.eng.putOrder 1 o)) part) .battery
    { ZoneRec.initial with state := .highTrip, pending := true, trip := ⟨some .highTrip, none, none, .pending⟩ }) .commissioning

/-- The start judged afresh, case by case: made, failed, held outside READY, its own reserve running, another zone's reserve, a host order. -/
theorem witness_ZoneTable_pending :
    zoneChangeOf .battery ⟨none, none, some (some 1, some 80)⟩ = some ⟨none, none, some (some ⟨1, 80⟩)⟩
    ∧ (∀ x ∈ [pendingIn .ready none, pendingIn .waking none, pendingIn .ready (some { order0 .running with owner := .reserve .battery }),
        pendingIn .ready (some { order0 .running with owner := .reserve .drive }), pendingIn .ready (some (order0 .running)),
        pendingIn .ready (some (order0 .setting))],
        x.accepts fr ∧ x.cfc.mode = .commissioning ∧ (x.eng.zone .battery).pending = true ∧ x.cfc.locks.limit = false)
    ∧ (let s := pendingIn .ready none
      let t := s.tab.changeZone .battery ⟨none, none, some (some ⟨1, 80⟩)⟩
      s.eng.order 1 = none ∧ s.eng.fetchFirst t (.reserve .battery) 0 80 = .ok (copyOf 80 seg0)
      ∧ s.eng.fetchFirst t (.reserve .battery) 0 81 = .error (.program .emptySlot (some 81))
      ∧ 0 < (t.entry (order0 .running).copy.path).runDown * 10) := by
  refine ⟨by decide +kernel, fun x hx => ?_, rfl, rfl, rfl, by decide +kernel⟩
  simp only [List.mem_cons, List.not_mem_nil, or_false] at hx
  rcases hx with rfl | rfl | rfl | rfl | rfl | rfl <;> exact ⟨accepts_of (by decide +kernel), rfl, rfl, rfl⟩

theorem witness_SensorMapWrite :
    (mapWriteOf base.sbe.map [⟨31, .zoneTemp 5⟩]).isSome = true ∧ mapWriteOf base.sbe.map [⟨32, .unused⟩] = none
    ∧ base.cfc.mode = .operating ∧ (inMode base .commissioning).cfc.mode = .commissioning := by decide +kernel

/-- R4, R22: a ZONE-TEMP input at -5.0 degrees written as METER-FLOW shows that temperature until the next scan. -/
theorem test_remapped_input :
    (let b := { base.sbe with
        map := Bank.put base.sbe.map 3 (.meterFlow .mBatt), applied := Bank.put base.sbe.applied 3 (.zoneTemp .battery)
        inputs := Bank.put base.sbe.inputs 3 (some ⟨.valid, some (-50), 0⟩) };
      (b.shown 3).value.bytes = [0xFF, 0xCE]) ∧ (base.sbe.shown 3).isFlow = false := by decide +kernel

/-- R183: a rate of +7.2 kilowatts is sent as 72, high byte first, in two bytes where the part takes no wider field. -/
theorem test_rate_in_tenths (h : Config.wider "rate" = 0) :
    (Machine.Field.mk "rate" (.maybeSigned 26600 (some 72))).bytes = [0x00, 0x48] := by
  show beBytes (2 + Config.wider "rate") (min (256 ^ (2 + Config.wider "rate") - 2) 72) = _
  rw [h]
  decide +kernel

theorem witness_Checksum : base.accepts fr ∧ 31 < areaSize .sensorMap ∧ areaSize .zones ≤ 6 ∧ areaSize .unknown ≤ 0 :=
  ⟨base_accepts, by decide⟩

/-! ## Witnesses: outputs and comfort -/


def spareState : State := base.putTables { base.tab with straps := ⟨false, false, true⟩ }
def pumpSet : ClaimSet := ⟨0, 2, 0, [(.pumpBatt, 50)], [], none, none⟩
def heldSpare : State := spareState.putEngine (spareState.eng.putGrants [pumpSet])

theorem witness_RoleExchanged :
    Role.isPump .fan = false ∧ Role.isPump .pumpBatt = true ∧ base.tab.straps.spare = false
    ∧ spareState.eng.ost.spare spareState.tab.straps = some 8 ∧ spareState.eng.ost.handOver = none
    ∧ spareState.eng.mapped .pumpBatt = 0 ∧ (spareState.eng.output 0).state = .inService
    ∧ (spareState.eng.output 8).state = .inService ∧ spareState.eng.mar.grants = []
    ∧ (heldSpare.eng.mar.grants = [pumpSet] ∧ pumpSet.names .pumpBatt = true)
    ∧ (spareState.eng.putOutput 0 { OutputRec.initial with state := .testing }).output 0
      = { OutputRec.initial with state := .testing }
    ∧ (spareState.eng.putOutput 8 { OutputRec.initial with state := .faulted }).output 8
      = { OutputRec.initial with state := .faulted } := by decide +kernel

/-- READ MOVERS with and without a hand-over: the incoming output, the outgoing one, and one that is neither. -/
theorem witness_MoversReported : base.accepts fr ∧ base.eng.ost.handOver = none
    ∧ (let s := spareState.putEngine
          { spareState.eng with ost := { spareState.eng.ost with handOver := some ⟨.pumpBatt, 8, some (0, 500), 7, 30⟩ } };
      s.accepts fr ∧ s.eng.ost.handOver = some ⟨.pumpBatt, 8, some (0, 500), 7, 30⟩
      ∧ s.moversNow.outputs.map (·.handOver) = [some (.outgoing, 7), none, none, none, none, none, none, none,
        some (.incoming, 7)]) :=
  ⟨base_accepts, rfl, accepts_of (by decide +kernel), rfl, by decide +kernel⟩

theorem witness_RoleExchanged_accepts : spareState.accepts fr ∧ heldSpare.accepts fr :=
  ⟨accepts_of (by decide +kernel), accepts_of (by decide +kernel)⟩

def faulted0 : OutputRec := { OutputRec.initial with state := .faulted, fault := some .stall }
def testing0 : OutputRec := { OutputRec.initial with state := .testing, testTimer := some 0, fault := some .stall }
def faultedV : ValveRec := { ValveRec.initial with state := .faulted, fault := some .travelTimeout }
def valveSet : ClaimSet := ⟨0, 2, 0, [], [(5, 40)], none, none⟩

theorem witness_TestBegun :
    ((withOutput 8 faulted0).eng.output 8).state = .faulted ∧ ((withOutput 4 faulted0).eng.output 4).state = .faulted
    ∧ (withCondition (withOutput 4 faulted0) (.equalizing .heat 3)).eng.mar.comp.condition ≠ .steady
    ∧ ((withOutput 0 testing0).eng.output 0).state = .testing ∧ (base.eng.output 0).state = .inService
    ∧ ((withValve base 5 faultedV).eng.valve 5).state = .faulted ∧ ((withValve base 5 faultedV).eng.valve 5).test = none
    ∧ (withValve base 5 faultedV).eng.mar.grants = [] ∧ (base.eng.valve 5).state ≠ .faulted
    ∧ ((withValve base 5 { faultedV with test := some ⟨.toZero, 0⟩ }).eng.valve 5).test ≠ none
    ∧ (base.eng.putGrants [valveSet]).mar.grants = [valveSet] ∧ valveSet.namesValve 5 = true
    ∧ (inPart base .waking).eng.part ≠ .ready := by decide +kernel

theorem witness_TestBegun_accepts : (withOutput 8 faulted0).accepts fr ∧ (withValve base 5 faultedV).accepts fr :=
  ⟨accepts_of (by decide +kernel), accepts_of (by decide +kernel)⟩

theorem witness_SetCabinTarget : base.accepts fr ∧ (1400 ≤ (1400 : Int) ∧ (1400 : Int) ≤ 3000 ∧ (1400 : Int) % 10 = 0)
    ∧ (3000 : Int) % 10 = 0 ∧ ¬ (1400 ≤ (1399 : Int)) ∧ ¬ ((1405 : Int) % 10 = 0) := ⟨base_accepts, by decide⟩

def cool0 : PathEntry := { path0 with source := .cabin, sink := .ambient }
def heat0 : PathEntry := { path0 with source := .drive, sink := .cabin }
def comfort0 : ComfortSettings := ⟨some 1, some 2, 10, 40, 900⟩

/-- `plant` with paths that serve the regulator. -/
def cab : State :=
  (plant.putTables { plant.tab with
    paths := Bank.put (Bank.put plant.tab.paths 1 (some heat0)) 2 (some cool0) }).putRegulator ⟨210, comfort0, .disabled⟩

def cabWith (o : Order) : State := cab.putEngine ((cab.eng.putRegState (.active .heating)).putOrder 5 (some o))
def comfortOrder0 (p : Phase) : Order := { newOrder .regulator 0 3 none (internalCopy 1 50) 900 with phase := p }

theorem witness_ComfortSwitched_on :
    cab.accepts fr ∧ comfortOf ⟨some 1, some 2, 10, 40, 900⟩ = some comfort0 ∧ cab.eng.crg.settings = comfort0
    ∧ Bank.nth cab.tab.paths 1 = some heat0 ∧ heat0.sink = .cabin ∧ Bank.nth cab.tab.paths 2 = some cool0
    ∧ cool0.source = .cabin ∧ cab.eng.part = .ready ∧ cab.cfc.lockout = false ∧ cab.eng.crg.state = .disabled
    ∧ cab.eng.order 5 = none ∧ (cab.eng.channel 5).recordQueued = false
    ∧ (inPart cab .waking).accepts fr ∧ (cab.putControl State.reset.cfc).accepts fr
    ∧ (cab.putEngine (cab.eng.putRegState .held)).accepts fr :=
  ⟨accepts_of (by decide +kernel), rfl, rfl, rfl, rfl, rfl, rfl, rfl, rfl, rfl, rfl, rfl, accepts_of (by decide +kernel),
    accepts_of (by decide +kernel), accepts_of (by decide +kernel)⟩

theorem witness_ComfortSwitched_off :
    ∀ o ∈ [comfortOrder0 .waiting, comfortOrder0 .setting, comfortOrder0 .running,
      comfortOrder0 (.ending (downTo .transition 9)), comfortOrder0 (.ending (downTo halted 9))],
      (cabWith o).accepts fr ∧ (cabWith o).eng.order 5 = some o ∧ o.owner = .regulator
      ∧ 0 < ((cabWith o).tab.entry o.copy.path).runDown * 10 := by
  intro o ho
  simp only [List.mem_cons, List.not_mem_nil, or_false] at ho
  rcases ho with rfl | rfl | rfl | rfl | rfl <;> exact ⟨accepts_of (by decide +kernel), rfl, rfl, by decide +kernel⟩

/-! ## Witnesses: configuration control -/

theorem witness_TuningAndMode : base.accepts fr ∧ tuningOk { defaultTuning with parkDelay := 10, meterHold := 30 } = true
    ∧ tuningOk { defaultTuning with parkDelay := 9 } = false ∧ true ≠ base.cfc.autoRelease ∧ base.cfc.mode = .operating
    ∧ (∀ c, base.eng.order c = none) ∧ base.eng.crg.state = .disabled ∧ (with0 (order0 .running)).eng.order 0 ≠ none :=
  ⟨base_accepts, by decide, by decide, by decide, rfl, by decide +kernel, rfl, by decide +kernel⟩

theorem witness_LocksAndWindow :
    (inMode base .commissioning).accepts fr ∧ (∀ c, (inMode base .commissioning).eng.order c = none)
    ∧ (inMode (with0 (order0 .running)) .commissioning).accepts fr
    ∧ (inMode (with0 (order0 .running)) .commissioning).eng.order 0 ≠ none
    ∧ base.accepts fr ∧ base.cfc.mode = .operating ∧ (0 : PathNo) ≤ 23 ∧ (23 : PathNo) ≤ 23 ∧ 23 < 24 :=
  ⟨accepts_of (by decide +kernel), by decide +kernel, accepts_of (by decide +kernel), by decide +kernel, base_accepts, rfl,
    by decide, by decide, by decide⟩

def saving : State := base.putControl { base.cfc with save := .writing, snapshot := some base.imageNow }

theorem witness_SaveCourse : base.accepts fr ∧ base.cfc.save ≠ .writing ∧ saving.accepts fr ∧ saving.run = .running
    ∧ saving.cfc.save = .writing ∧ saving.sbe.scan = none ∧ saving.cfc.snapshot = some base.imageNow :=
  ⟨base_accepts, by decide, accepts_of (by decide +kernel), rfl, rfl, rfl, rfl⟩

def parkTimed : State := base.putControl { base.cfc with parkTimer := 6000 }
def enabling : State := base.putEngine { base.eng with part := .waking, wake := .outputEnable }

theorem base_quiet : base.quiet :=
  ⟨by decide +kernel, by decide +kernel, fun z => by cases z <;> rfl, by decide +kernel, by decide +kernel, by decide⟩

theorem witness_LockoutParkEnable :
    base.accepts fr ∧ base.eng.part = .ready ∧ base.quiet ∧ ¬ saving.quiet
    ∧ (parkTimed.run = .running ∧ parkTimed.eng.part = .ready ∧ parkTimed.tab.tuning.parkDelay = 600
      ∧ parkTimed.tab.tuning.parkDelay * 10 ≤ parkTimed.cfc.parkTimer ∧ parkTimed.quiet)
    ∧ (enabling.run = .running ∧ enabling.eng.part = .waking ∧ enabling.eng.wake = .outputEnable
      ∧ ∀ z, (enabling.eng.zone z).pending = false) :=
  ⟨base_accepts, rfl, base_quiet, fun h => h.2.2.2.2.2 rfl, ⟨rfl, rfl, rfl, by decide, base_quiet⟩,
    ⟨rfl, rfl, rfl, fun z => by cases z <;> rfl⟩⟩

/-! ## Witnesses: scans -/

/-- `base` with a zone sensor at input 31, VALID with a value and a miss count. -/
def sensed (misses : Nat) : State :=
  let m := Bank.put base.sbe.map 31 (.zoneTemp .battery)
  { base with sbe := { base.sbe with
      map := m, applied := m, inputs := Bank.put base.sbe.inputs 31 (some ⟨.valid, some 248, misses⟩) } }

theorem witness_ScansAndReads :
    base.run = .running ∧ base.sbe.scan = none ∧ base.eng.part = .ready ∧ (inPart base .parked).eng.part = .parked
    ∧ enabling.sbe.scan = none ∧ (inPart base .waking).eng.wake = .scanDue
    ∧ (withScan (sensed 2) .full [31]).sbe.scan = some ⟨.full, 31 :: []⟩
    ∧ Bank.nth (withScan (sensed 2) .full [31]).sbe.inputs 31 = some ⟨.valid, some 248, 2⟩
    ∧ Bank.nth (withScan (sensed 1) .full [31]).sbe.inputs 31 = some ⟨.valid, some 248, 1⟩
    ∧ (MapEntry.zoneTemp .battery).accepts 1500 = true ∧ (MapEntry.zoneTemp .battery).accepts 1501 = false := by
  decide +kernel

/-- R12: the readings 24.8 and 24.7 have the mean 24.8, a half rounded toward the higher. -/
theorem test_reading : readingOf [248, 247] = ⟨2, some 248, some 247, some 248⟩ ∧ readingOf [] = ⟨0, none, none, none⟩ := by
  decide

theorem witness_ScanEndReadings : (withScan base .parked []).run = .running
    ∧ (withScan base .parked []).sbe.scan = some ⟨.parked, []⟩ := ⟨rfl, rfl⟩

theorem witness_ZonesJudged : (withScan base .full []).run = .running ∧ (withScan base .full []).sbe.scan = some ⟨.full, []⟩
    ∧ (∃ t, exec (.scanEnd quietFeedback separate) (withScan base .full []) = .next t)
    ∧ (shippedZone (some (-300)) (some 50) (some 400) (some 550) 30).limits.hardHigh = some 550 :=
  ⟨rfl, rfl, ⟨_, rfl⟩, rfl⟩

/-- A map with the three inputs of M-BATT and a sensor in every zone; flow 20.0, supply 20.0, return 25.0, zones at 25.0. -/
def fullMap : Bank MapEntry 32 :=
  Vector.ofFn (fun i => ([MapEntry.meterFlow .mBatt, .meterSupply .mBatt, .meterReturn .mBatt, .zoneTemp .battery,
    .zoneTemp .drive, .zoneTemp .cabin, .zoneTemp .ambient, .zoneTemp .resistor, .zoneTemp .inlet][i.val]?).getD .unused)

def fullInputs : Bank (Option InputRec) 32 :=
  Vector.ofFn (fun i => ([some 200, some 200, some 250, some 250, some 250, some 250, some 250, some 250,
    some 250][i.val]?).map (fun v => ⟨.valid, v, 0⟩))

def metered (m : MeterRec) : State :=
  withMeter (withScan { base with sbe := { base.sbe with map := fullMap, applied := fullMap, inputs := fullInputs } } .full [])
    .mBatt m

def validMeter : MeterRec := ⟨.valid, some 60, none, 0, none, 0, false, false⟩

theorem witness_MeterJudged :
    (metered .initial).sbe.meterInputs .mBatt = some ⟨200, 200, 250⟩ ∧ (metered .initial).sbe.scan = some ⟨.full, []⟩
    ∧ ((metered .initial).eng.meter .mBatt).state = .invalid ∧ separate.due = .separate
    ∧ (let s := withMeter (withScan base .full []) .mBatt validMeter;
      s.sbe.meterInputs .mBatt = none ∧ (s.eng.meter .mBatt).rate = some 60 ∧ s.tab.tuning.meterHold ≠ 0)
    ∧ (let s := withMeter (withScan base .full []) .mBatt { validMeter with state := .holding, held := some 60, holdCount := 49 };
      s.sbe.meterInputs .mBatt = none ∧ (s.eng.meter .mBatt).held = some 60) := by decide +kernel

def inHandOver (ended : Bool) (before : MeterState) : MeterRec :=
  ⟨.handOver, some 61, some 60, 3, some before, 0, ended, false⟩

/-- A hand-over that runs, with inputs and without, and one that has ended, from VALID and from HOLDING. -/
theorem witness_MeterJudged_handOver :
    (metered (inHandOver false .valid)).eng.meter .mBatt = inHandOver false .valid
    ∧ (metered (inHandOver true .valid)).sbe.meterInputs .mBatt = some ⟨200, 200, 250⟩
    ∧ (∀ b ∈ [MeterState.valid, .holding],
      let s := withMeter (withScan base .full []) .mBatt (inHandOver true b)
      s.sbe.meterInputs .mBatt = none ∧ s.eng.meter .mBatt = inHandOver true b) := by
  decide +kernel

/-- R15, R20: the rate follows valid inputs in HAND-OVER, the heat the held rate; after it a meter that was VALID holds the rate last computed. -/
theorem test_hand_over_rate :
    ((inHandOver false .valid).judge ⟨36, 5⟩ (some ⟨200, 200, 300⟩)).meter.rate = some 120
    ∧ ((inHandOver false .valid).judge ⟨36, 5⟩ (some ⟨200, 200, 300⟩)).heat = some 6
    ∧ ((inHandOver false .valid).judge ⟨36, 5⟩ none).meter.rate = some 61
    ∧ ((inHandOver true .valid).judge ⟨36, 5⟩ none).meter.held = some 61
    ∧ ((inHandOver true .holding).judge ⟨36, 5⟩ none).meter.held = some 60 := by decide

def longSeg : Transfer := { seg0 with quantity := 1000, timeLimit := 0 }
def runningOrder : Order :=
  { newOrder .host 1 2 (some 0) (copyOf 0 longSeg) 0 with phase := .running, runFlag := true, remaining := some 10000 }

def counting : State :=
  let s := metered validMeter
  { s with
    eng := s.eng.putOrder 0 (some runningOrder)
    tab := { s.tab with paths := Bank.put s.tab.paths 0 (some path0) } }

theorem witness_RunningCounts :
    counting.run = .running ∧ counting.sbe.scan = some ⟨.full, []⟩ ∧ counting.eng.part = .ready
    ∧ separate.channelsFirst.Nodup ∧ (∀ n, (Bank.nth quietFeedback.outputs n).current < 1200)
    ∧ counting.eng.crg.state = .disabled
    ∧ (∀ z, (counting.eng.zone z).state = zoneNext (counting.tab.zone z).limits
        (Bank.nth counting.sbe.formReadings z.idx) (counting.eng.zone z).state)
    ∧ (∀ c', c' ≠ 0 → counting.eng.order c' = none) ∧ counting.eng.order 0 = some runningOrder
    ∧ counting.tab.entry runningOrder.copy.path = path0
    ∧ depletedVerdict (counting.tab.zone .battery).limits (Bank.nth counting.sbe.formReadings 0) = false
    ∧ fullVerdict (counting.tab.zone .drive).limits (Bank.nth counting.sbe.formReadings 1) = false
    ∧ (counting.eng.meter .mBatt).state = .valid ∧ counting.sbe.meterInputs .mBatt = some ⟨200, 200, 250⟩
    ∧ inSense .positive ((0 + meterRate 200 36 250 200).tdiv 10) < 10000 :=
  ⟨rfl, rfl, rfl, by decide, by decide +kernel, rfl, fun z => by cases z <;> decide +kernel, by decide +kernel, rfl, rfl,
    by decide +kernel, by decide +kernel, rfl, by decide +kernel, by decide +kernel⟩

/-- The statement RunningCounts on that state: 6.0 kilowatts for 0.1 second are 0.6 kilojoule. -/
theorem test_counts : ∃ t, exec (.scanEnd quietFeedback separate) counting = .next t
    ∧ (t.eng.order 0).map (fun o => (o.delivered, o.remaining, o.orderTime, o.segTime)) = some (6, some 9994, 1, 1)
    ∧ (t.eng.order 0).map (fun o => Bank.nth o.demands 0) = some 249 := by
  refine ⟨_, rfl, ?_⟩
  decide +kernel

theorem witness_OutputsDriven : (withScan base .full []).eng.ost.handOver = none
    ∧ ((withScan base .full []).eng.output 4).state = .inService ∧ (Bank.nth quietFeedback.outputs 4).current < 1200 := by
  decide +kernel

/-! ## Witnesses: the scan end of the regulator and of a trip -/

/-- `metered` with the tables of `cab`, the regulator as given and an order on channel 5. -/
def cabScan (target : Int) (st : RegState) (o : Option Order) : State :=
  let s := metered validMeter
  { s with tab := cab.tab, eng := ({ s.eng with crg := ⟨target, comfort0, st⟩ }).putOrder 5 o }

/-- A scan in which no zone has a reading, every zone BLIND already. -/
def blindScan (d : Direction) : State :=
  { cabScan 250 (.active d) none with
    sbe := { (cabScan 250 (.active d) none).sbe with inputs := Vector.replicate 32 none }
    eng := { (cabScan 250 (.active d) none).eng with zones := Vector.replicate 6 { ZoneRec.initial with state := .blind } } }

/-- The cooling path ends in a zone that is BLIND, or that class 3 may not use. -/
def barredScan (st : ZoneState) (classes : ClassSet) : State :=
  let s := withZone (cabScan 210 (.active .resting) none) .ambient { ZoneRec.initial with state := st }
  { s with
    tab := { s.tab with zones := Bank.put s.tab.zones 3 { s.tab.zone .ambient with sinkClasses := classes } }
    sbe := { s.sbe with inputs := if st = .blind then Bank.put s.sbe.inputs 6 (some ⟨.lost, none, 3⟩) else s.sbe.inputs } }

/-- What a statement about a full scan's end asks of a state, decided. -/
def endsQuietly (s : State) (z : Zone → Bool) (c : ChannelNo) : Bool :=
  decide (s.run = .running ∧ s.sbe.scan = some ⟨.full, []⟩ ∧ s.eng.part = .ready)
  && Zone.all.all (fun y => z y || decide ((s.eng.zone y).state
      = zoneNext (s.tab.zone y).limits (Bank.nth s.sbe.formReadings y.idx) (s.eng.zone y).state))
  && allChannels.all (fun d => decide (d = c) || (s.eng.order d).isNone)
  && Zone.all.all (fun y => !(s.eng.zone y).pending) && decide (s.eng.mar.claims ++ s.eng.mar.grants = [])

theorem endsQuietly_spec {s : State} {x : Zone → Bool} {c : ChannelNo} (h : endsQuietly s x c = true) :
    s.atFullScanEnd quietFeedback separate ∧ (∀ y, x y = false → s.zoneStands y) ∧ s.eng.settledOn c := by
  simp only [endsQuietly, Bool.and_eq_true, decide_eq_true_eq, List.all_eq_true, Bool.or_eq_true, Option.isNone_iff_eq_none,
    Bool.not_eq_true'] at h
  obtain ⟨⟨⟨⟨h1, h2⟩, h3⟩, h4⟩, h5⟩ := h
  refine ⟨⟨h1.1, h1.2.1, h1.2.2, rfl, by decide, by decide +kernel⟩, fun y hy => ?_, fun d hd => ?_, fun y => h4 y (mem_allZones y), ?_⟩
  · rcases h2 y (mem_allZones y) with k | k
    · rw [hy] at k; cases k
    · exact k
  · rcases h3 d (mem_allChannels d) with k | k
    · exact absurd k hd
    · exact k
  · rw [h5]; exact fun g hg => nomatch hg

/-- The state that the scan end leaves. -/
def afterScan (s : State) : State :=
  match exec (.scanEnd quietFeedback separate) s with
  | .next t => t
  | .fault _ | .refused _ => s

def noZone (_ : Zone) : Bool := false

theorem witness_ComfortSwitched_resting :
    (∀ s ∈ [cabScan 250 .held none, cabScan 250 .disabled none, blindScan .heating, cabScan 250 (.active .resting) none,
      cabScan 210 (.active .resting) none, barredScan .blind allClasses, barredScan .normal ⟨true, true, false⟩],
      endsQuietly s noZone 5 = true ∧ s.eng.order 5 = none)
    ∧ (Bank.nth (blindScan .heating).sbe.formReadings 2).mean = none := by decide +kernel

/-- R157 to R160 on three of those states: a start that is granted, a start into a BLIND zone, a start into a zone closed to class 3. -/
theorem test_comfort_starts :
    (let t := afterScan (cabScan 210 (.active .resting) none); t.eng.crg.state = .active .cooling
          ∧ (t.eng.order 5).map (fun o => (o.copy, o.phase, o.waitLimit)) = some (internalCopy 2 100, .setting, 900))
    ∧ (let t := afterScan (barredScan .blind allClasses);
      t.eng.crg.state = .suspended ∧ (t.eng.channel 5).recordQueued = true ∧ t.eng.reports.length = 1)
    ∧ (let t := afterScan (barredScan .normal ⟨true, true, false⟩);
      t.eng.crg.state = .suspended ∧ (t.eng.channel 5).recordQueued = true ∧ t.eng.reports.length = 1) := by
  decide +kernel

def comfortAt (n : PathNo) (p : Phase) : Order := { newOrder .regulator 0 3 none (internalCopy n 50) 900 with phase := p }

/-- An order of either direction that waits, sets or runs, with a cab that asks for the same, for nothing, or for the other. -/
theorem witness_ComfortSwitched_order :
    ∀ p ∈ [Phase.waiting, .setting, .running],
      (endsQuietly (cabScan 210 (.active .cooling) (some (comfortAt 2 p))) noZone 5 = true
        ∧ endsQuietly (cabScan 250 (.active .cooling) (some (comfortAt 2 p))) noZone 5 = true
        ∧ endsQuietly (cabScan 210 (.active .heating) (some (comfortAt 1 p))) noZone 5 = true)
      ∧ (comfortAt 2 p).owner = .regulator ∧ (comfortAt 2 p).cls = 3 ∧ (cab.tab.entry 2).runDown ≠ 0
      ∧ validate cab.tab 3 none (internalCopy 2 100) = none
      ∧ (cabScan 210 (.active .heating) none).eng.setup cab.tab .regulator (internalCopy 2 100) = none := by
  decide +kernel

theorem witness_ComfortSwitched_keeps :
    (cabScan 210 (.active .cooling) (some (comfortAt 2 .setting))).keepsSetting (comfortAt 2 .setting)
    ∧ (cabScan 210 (.active .cooling) (some (comfortAt 2 .running))).keepsRunning (comfortAt 2 .running) :=
  ⟨⟨rfl, (0, 40), by decide +kernel, by decide +kernel⟩,
    rfl, rfl, by decide +kernel, rfl, rfl, rfl, rfl, by decide +kernel, by decide +kernel⟩

theorem test_comfort_orders :
    (let t := afterScan (cabScan 210 (.active .cooling) (some (comfortAt 2 .running)));
      (t.eng.order 5).map (fun o => (o.copy.rate, o.phase)) = some (100, .running))
    ∧ (let t := afterScan (cabScan 250 (.active .cooling) (some (comfortAt 2 .waiting)));
      t.eng.order 5 = none ∧ t.eng.crg.state = .active .resting)
    ∧ (let t := afterScan (cabScan 210 (.active .heating) (some (comfortAt 1 .setting)));
      t.eng.crg.state = .active .cooling ∧ (t.eng.order 5).map (·.next) = some (some (internalCopy 2 100))) := by
  decide +kernel

/-- `metered` with another value at one input, a state of the battery zone, a reserve for it, and an order on channel 0. -/
def tripScan (i : InputNo) (v : Int) (z : ZoneRec) (r : Option Reserve) (o : Option Order) : State :=
  let s := metered validMeter
  { s with
    tab := { plant.tab with zones := Bank.put plant.tab.zones 0 { plant.tab.zone .battery with reserve := r } }
    sbe := { s.sbe with inputs := Bank.put s.sbe.inputs i (some ⟨.valid, some v, 0⟩) }
    eng := (s.eng.putZone .battery z).putOrder 0 o }

def isDrive (z : Zone) : Bool := z = .drive
def isBattery (z : Zone) : Bool := z = .battery

/-- The drive zone, sink of the path, enters HIGH-TRIP on 100.0 degrees under an order that waits, sets or runs. -/
theorem witness_ZonesJudged_trip :
    ∀ p ∈ [Phase.waiting, .setting, .running],
      let s := tripScan 4 1000 .initial none (some (order0 p))
      endsQuietly s isDrive 0 = true ∧ s.eng.order 0 = some (order0 p) ∧ (order0 p).owner = .host
      ∧ (s.tab.zone .drive).reserve = none ∧ (s.tab.entry 0).sink = .drive ∧ (s.tab.entry 0).runDown ≠ 0
      ∧ (s.eng.meter .mBatt).state = .valid ∧ s.sbe.meterInputs .mBatt ≠ none ∧ s.eng.crg.state = .disabled
      ∧ (let t := afterScan s; (t.eng.zone .drive).state = .highTrip ∧ (p = .waiting → t.eng.order 0 = none)) := by
  decide +kernel

/-- The battery zone enters HIGH-TRIP on 60.0 degrees with a reserve on channel 1, or returns to NORMAL with one pending. -/
theorem witness_ZonesJudged_reserve :
    (∀ slot ∈ [(80 : SlotNo), 81],
      let s := tripScan 3 600 .initial (some ⟨1, slot⟩) none
      endsQuietly s isBattery 1 = true ∧ s.eng.order 1 = none ∧ (s.tab.zone .battery).reserve = some ⟨1, slot⟩
      ∧ (let t := afterScan s; (t.eng.zone .battery).state = .highTrip ∧ (t.eng.order 1 = none ↔ slot = 81)))
    ∧ (let s := tripScan 3 250 { ZoneRec.initial with state := .highTrip, pending := true } none none
      (∀ c, s.eng.order c = none) ∧ (s.eng.zone .battery).pending = true
      ∧ (let t := afterScan s; (t.eng.zone .battery).state = .normal ∧ (t.eng.zone .battery).trip.outcome = .notStarted)) := by
  decide +kernel

/-- A parked scan finds the battery zone at 60.0 degrees. -/
def parkedTrip : State := withScan (inPart (tripScan 3 600 .initial (some ⟨1, 80⟩) none) .parked) .parked []

theorem witness_ZonesJudged_parked : parkedTrip.run = .running ∧ parkedTrip.sbe.scan = some ⟨.parked, []⟩
    ∧ parkedTrip.eng.part = .parked ∧ (∀ c, parkedTrip.eng.order c = none) ∧ (∀ o, (parkedTrip.eng.output o).level = 0)
    ∧ parkedTrip.eng.crg.state = .disabled
    ∧ (let t := afterScan parkedTrip; t.eng.part = .waking ∧ (t.eng.zone .battery).pending = true) := by
  decide +kernel

theorem witness_ScansAndReads_parked :
    (inPart base .parked).eng.mar.comp.condition = .steady
    ∧ (∀ n ∈ [101, 100, 0], (parkedWith n).eng.mar.comp.condition = .equalizing .cool n ∧ (parkedWith n).sbe.scan = none
      ∧ (parkedWith n).eng.part = .parked ∧ (parkedWith n).sbe.parkedTime = 0) := by
  decide +kernel

/-! ## Witnesses: what falls due -/

def expiring (o : Order) : State :=
  withMeter (with0 o) .mBatt { validMeter with state := .holding, held := some 60, holdCount := 50, expiryDue := true }

theorem witness_MeterHoldExpires :
    ∀ o ∈ [order0 .running, order0 (.ending (downTo halted 9)), order0 .waiting, order0 .setting],
      (expiring o).run = .running ∧ ((expiring o).eng.meter .mBatt).state = .holding
      ∧ ((expiring o).eng.meter .mBatt).expiryDue = true ∧ (expiring o).eng.order 0 = some o
      ∧ ((expiring o).tab.entry o.copy.path).runDown ≠ 0 ∧ ((expiring o).tab.entry o.copy.path).meter = .mBatt
      ∧ ∀ c, c ≠ 0 → (expiring o).eng.order c = none := by
  decide +kernel

def reserved (slot : SlotNo) : State :=
  withZone (plant.putTables { plant.tab with
    zones := Bank.put plant.tab.zones 0 { plant.tab.zone .battery with reserve := some ⟨1, slot⟩ } })
    .battery { ZoneRec.initial with state := .highTrip, pending := true }

theorem witness_ReservePendingStarts :
    (reserved 80).run = .running ∧ (reserved 80).eng.part = .ready ∧ (reserved 80).eng.order 1 = none
    ∧ ((reserved 80).eng.zone .battery).pending = true ∧ ((reserved 80).tab.zone .battery).reserve = some ⟨1, 80⟩
    ∧ (∀ y, y ≠ Zone.battery → ((reserved 80).tab.zone y).reserve = none)
    ∧ (reserved 80).eng.fetchFirst (reserved 80).tab (.reserve .battery) 0 80 = .ok (copyOf 80 seg0)
    ∧ (reserved 81).eng.fetchFirst (reserved 81).tab (.reserve .battery) 0 81 = .error (.program .emptySlot (some 81)) :=
  ⟨rfl, rfl, rfl, rfl, rfl, fun y h => by cases y <;> first | exact absurd rfl h | rfl, rfl, rfl⟩

/-- R161: a reserve start on channel 5 whose first segment fails takes an ACTIVE regulator to HELD; on another channel it does not. -/
theorem test_failed_start_is_noticed :
    let e := (reserved 81).eng.putRegState (.active .resting)
    let start (c : ChannelNo) := e.startReserve (reserved 81).tab id .battery ⟨c, 81⟩
    (start 5).crg.state = .held ∧ (start 1).crg.state = .active .resting
      ∧ ((start 5).zone .battery).trip.outcome = .ended .programError 0 ∧ (start 5).order 5 = none := by decide +kernel

def atLimit (flags : SegFlags) : Order :=
  { newOrder .host 1 2 (some 0) (copyOf 0 { seg0 with flags := flags }) 0 with phase := .running, segTime := 100 }
def waited0 : Order := { newOrder .host 1 2 (some 0) (copyOf 0 seg0) 5 with waitTimer := 50 }
def toNext : Order := { order0 (.ending (downTo .transition 0)) with next := some (copyOf 80 seg0) }

theorem witness_OrderTimers :
    (∀ o ∈ [atLimit noFlags, atLimit { noFlags with shortOk := true }],
      (with0 o).eng.order 0 = some o ∧ o.phase = .running ∧ o.remaining ≠ some 0 ∧ o.copy.timeLimit ≠ 0
      ∧ o.copy.timeLimit * 10 ≤ o.segTime ∧ 0 < ((with0 o).tab.entry o.copy.path).runDown * 10 ∧ o.owner = .host)
    ∧ ({ order0 .running with lead := some 0 } : Order).lead = some 0
    ∧ ((with0 waited0).eng.order 0 = some waited0 ∧ waited0.phase = .waiting ∧ waited0.waitLimit * 10 ≤ waited0.waitTimer)
    ∧ (order0 (.ending (downTo halted 0))).owner = .host
    ∧ ((with0 toNext).eng.holds 0 = false ∧ (with0 toNext).eng.setup (with0 toNext).tab .host (copyOf 80 seg0) = none) := by
  decide +kernel

theorem witness_OutputFaults :
    ((withOutput 0 { OutputRec.initial with level := 100, openCount := 10 }).eng.output 0).openCount = 10
    ∧ ((withOutput 0 { OutputRec.initial with level := 100, openCount := 9, stallCount := 30 }).eng.output 0).stallCount = 30
    ∧ ((withOutput 0 { OutputRec.initial with openCount := 10 }).eng.output 0).state = .inService := by decide +kernel

def overHand : State :=
  spareState.putEngine { spareState.eng with ost := { spareState.eng.ost with handOver := some ⟨.pumpBatt, 8, some (0, 500), 0, 30⟩ } }

theorem witness_MoverTimers :
    (withCondition base (.equalizing .heat 0)).eng.mar.comp.condition = .equalizing .heat 0
    ∧ (withOutput 0 testing0).eng.output 0 = testing0 ∧ testing0.current < 50
    ∧ (50 ≤ ({ testing0 with current := 50 } : OutputRec).current ∧ (outputKind 0).turns = true)
    ∧ (outputKind 6).turns = false ∧ overHand.eng.ost.handOver = some ⟨.pumpBatt, 8, some (0, 500), 0, 30⟩ := by
  decide +kernel

def travelling (f : Nat) : ValveRec :=
  { ValveRec.initial with state := .travelling, commanded := some 40, feedback := some f, travelTimer := 0 }
def settingState (f : Nat) : State :=
  withMeter (withValve (with0 (order0 .setting)) 0 (travelling f)) .mBatt validMeter

theorem witness_ValveTravels :
    (travelling 43).arrived = true ∧ (travelling 44).arrived = false ∧ ((withValve base 0 (travelling 43)).eng.valve 0) = travelling 43
    ∧ ((settingState 43).eng.order 0 = some (order0 .setting) ∧ (order0 .setting).copy.flags.progress = false
      ∧ (settingState 43).tab.entry 0 = path0 ∧ path0.valves = [(0, 40)] ∧ ((settingState 43).eng.meter .mBatt).state = .valid
      ∧ ∀ c, c ≠ 0 → (settingState 43).eng.order c = none)
    ∧ ({ ValveRec.initial with driftCount := 10 } : ValveRec).state = .atPosition
    ∧ ({ faultedV with feedback := some 3, test := some ⟨.toZero, 40⟩ } : ValveRec).reads 0 = true
    ∧ ({ faultedV with feedback := some 37, test := some ⟨.back, 40⟩ } : ValveRec).reads 40 = true := by decide +kernel

theorem witness_ValveFaults :
    ((settingState 90).eng.valve 0 = travelling 90 ∧ (travelling 90).travelTimer = 0 ∧ (travelling 90).arrived = false
      ∧ (settingState 90).eng.order 0 = some (order0 .setting) ∧ 0 < ((settingState 90).tab.entry 0).runDown * 10)
    ∧ ({ faultedV with feedback := some 90, test := some ⟨.toZero, 40⟩ } : ValveRec).reads 0 = false
    ∧ ({ faultedV with feedback := some 90, test := some ⟨.back, 40⟩ } : ValveRec).reads 40 = false
    ∧ ({ travelling 90 with missCount := 3 } : ValveRec).state ≠ .faulted := by decide +kernel

theorem witness_EventsLeaveAlone : plantEvent .equalizeEnd = true ∧ ∃ t, exec .equalizeEnd base = .next t := ⟨rfl, _, rfl⟩

/-! ## Witnesses: the panel, protection, reports, chains, invariants -/

theorem witness_PanelLines :
    base.run = .running ∧ base.eng.part ≠ .starting ∧ base.panel = ⟨[], false, false, none, none⟩
    ∧ (140 ≤ (1 * 100 + 4 * 10 + 0 : Int) ∧ (3 * 100 + 0 * 10 + 0 : Int) ≤ 300 ∧ (3 * 100 + 0 * 10 + 1 : Int) > 300)
    ∧ readLine [0x54, 0x3D, 0x20] = .other ∧ 16 < (List.replicate 17 (0x41 : Byte)).length := by decide +kernel

theorem witness_LocksProtect : restartsOrInstalls (.writeSegments fr []) = false
    ∧ ∃ t, exec (.writeSegments fr []) (base.putControl { base.cfc with locks := ⟨true, true, true⟩ }) = .next t :=
  ⟨rfl, _, rfl⟩

theorem witness_ReportHanded :
    (∀ r ∈ ([] : List Report), r.key ≠ zoneRep.key)
    ∧ ([⟨.completion (endedRec 0), 0⟩, ⟨zoneRep, 255⟩] : List Report) = [⟨.completion (endedRec 0), 0⟩] ++ ⟨zoneRep, 255⟩ :: []
    ∧ (∀ x ∈ ([⟨.completion (endedRec 0), 0⟩] ++ [] : List Report), x.key ≠ zoneRep.key) := by decide +kernel

/-- Slots for the cases of R33: 0 a TRANSFER, 1 a jump to it, 2 a jump out of the area, 3 a jump to a jump, 4 a jump to EMPTY. -/
def jumps : Bank Segment 96 :=
  Vector.ofFn (fun i => ([Segment.transfer seg0, .jump 0, .jump 80, .jump 3, .jump 79][i.val]?).getD .empty)

theorem witness_LocatingErrors :
    (95 : SlotNo).val = 95 ∧ (79 : SlotNo).val = 79 ∧ Bank.nth jumps 0 = .transfer seg0 ∧ Bank.nth jumps 1 = .jump 0
    ∧ Bank.nth jumps 2 = .jump 80 ∧ Bank.nth jumps 3 = .jump 3 ∧ Bank.nth jumps 4 = .jump 79 ∧ Bank.nth jumps 79 = .empty := by
  decide +kernel

theorem test_locate : locateAt jumps false 1 = .ok (0, seg0) ∧ locateAfter jumps false 79 = .error (.program .areaCrossed (some 79))
    ∧ locateAt jumps false 3 = .error (.program .jumpToJump (some 3))
    ∧ locateAt jumps false 2 = .error (.program .jumpOutOfRange (some 2))
    ∧ successorOf plant.tab { order0 .running with copy := copyOf 79 seg0 } = .error (.program .areaCrossed (some 79)) :=
  ⟨rfl, rfl, rfl, rfl, rfl⟩

theorem witness_SegmentRoundTrip : segmentOk (.transfer seg0) = true
    ∧ segmentOf [1, 0, 0, 100, 0, 50, 0, 10, 3, 0] = some (.transfer seg0) := by decide

theorem witness_invariants : State.reset.eng.restsOutsideReady ∧ State.reset.link.repliesOk ∧ State.reset.panel.placesOk
    ∧ State.reset.cfc.saveOk ∧ reportsDistinct State.reset.eng.reports ∧ (∃ t, step State.reset = .next t) :=
  ⟨fun _ => ⟨by unfold Engine.noOrders; decide +kernel, .inl rfl, by unfold Engine.levelsZero; decide +kernel⟩,
    ⟨fun _ => rfl, ⟨by decide, by decide⟩, by decide⟩, ⟨fun _ => rfl, by decide⟩, ⟨by decide, by decide⟩,
    List.nodup_nil, ⟨_, rfl⟩⟩

theorem witness_InputsKept : State.reset.sbe.inputsOk := by
  intro i
  have h1 : Bank.nth State.reset.sbe.inputs i = none := by simp [State.reset, State.fresh, SensorBus.initial, Bank.nth]
  have h2 : Bank.nth State.reset.sbe.applied i = .unused := by simp [State.reset, State.fresh, SensorBus.initial, Bank.nth]
  rw [h1]
  exact h2

end Sys2Proof.Tests
end

section
/-! O57: every step keeps the inputs consistent with the applied map and with R9's table. -/

namespace Sys2Proof.Machine

open Sys2Proof

/-! ### One input -/

/-- An input's record under the map entry it was last scanned by: what the invariant says of one input (R2, R4, R9). -/
def InputFits (m : MapEntry) (x : Option InputRec) : Prop :=
  match x with
  | none => m = .unused
  | some r => m ≠ .unused ∧ r.consistent ∧ ∀ v, r.value = some v → m.accepts v = true

/-- The invariant of O57, wrapped: every input fits the entry it was last scanned by. -/
structure SensorBus.Consistent (b : SensorBus) : Prop where
  fits : ∀ i, InputFits (Bank.nth b.applied i) (Bank.nth b.inputs i)

theorem consistent_iff (b : SensorBus) : b.Consistent ↔ b.inputsOk := ⟨fun h => h.fits, fun h => ⟨h⟩⟩

/-- The invariant speaks of the inputs and of the applied map alone. -/
theorem consistent_of_eq {a b : SensorBus} (h : a.Consistent) (hi : b.inputs = a.inputs) (hm : b.applied = a.applied) :
    b.Consistent := by
  constructor
  rw [hi, hm]
  exact h.fits

theorem inputFits_freshInput (m : MapEntry) : InputFits m (freshInput m) := by
  cases m <;> simp [InputFits, freshInput, InputRec.lostRec, InputRec.consistent]

theorem inputFits_lost {m : MapEntry} (h : m ≠ .unused) : InputFits m (some ⟨.lost, none, 3⟩) :=
  ⟨h, .inr ⟨rfl, rfl, rfl⟩, nofun⟩

theorem inputFits_good {m : MapEntry} {v : Int} (h : m.accepts v = true) : InputFits m (some (.good v)) := by
  refine ⟨?_, .inl ⟨rfl, by simp [InputRec.good], rfl⟩, ?_⟩
  · rintro rfl
    exact absurd h (by simp [MapEntry.accepts])
  · simpa [InputRec.good] using h

/-- A miss keeps the value while the count stays below 3, and makes the input LOST at 3 (R10). -/
theorem inputFits_missed {m : MapEntry} {r : InputRec} (h : InputFits m (some r)) : InputFits m (some r.missed) := by
  obtain ⟨hm, hc, hv⟩ := h
  unfold InputRec.missed
  rcases hc with ⟨hs, hn, hsome⟩ | ⟨hs, -, -⟩
  · rw [hs]
    dsimp only
    split
    · exact ⟨hm, .inl ⟨rfl, by simp only; omega, hsome⟩, hv⟩
    · exact inputFits_lost hm
  · rw [hs]
    exact inputFits_lost hm

/-- A value that a read yields is in the range of the role (R2, R5). -/
theorem accepts_of_readValue {m : MapEntry} {reply : SensorReply} {v : Int} (h : m.readValue reply = some v) :
    m.accepts v = true := by
  cases reply with
  | noAnswer => cases h
  | corrupted => cases h
  | number x =>
    simp only [MapEntry.readValue, Option.ite_none_right_eq_some, Option.some.injEq] at h
    obtain ⟨ha, rfl⟩ := h
    exact ha

/-- One read keeps the input consistent, whatever comes (R9, R10). -/
theorem inputFits_after {m : MapEntry} {x : Option InputRec} (h : InputFits m x) (reply : SensorReply) :
    InputFits m (x.map (fun r => r.after (m.readValue reply))) := by
  cases x with
  | none => exact h
  | some r =>
    show InputFits m (some (r.after (m.readValue reply)))
    cases hv : m.readValue reply with
    | none => exact inputFits_missed h
    | some v => exact inputFits_good (accepts_of_readValue hv)

/-! ### The sensor bus engine's operations -/

theorem consistent_initial : SensorBus.initial.Consistent := by
  constructor
  intro i
  simp [SensorBus.initial, InputFits]

/-- The start of a scan applies the map: a changed input restarts, the others stay (R4). -/
theorem consistent_start {b : SensorBus} (h : b.Consistent) (kind : ScanKind) : (b.start kind).Consistent := by
  constructor
  intro i
  have hn : Bank.nth (b.start kind).inputs i = if Bank.nth b.map i = Bank.nth b.applied i then Bank.nth b.inputs i
      else freshInput (Bank.nth b.map i) := by
    simp [SensorBus.start, restarted, Bank.nth]
  show InputFits (Bank.nth b.map i) _
  rw [hn]
  split
  · rename_i he
    rw [he]
    exact h.fits i
  · exact inputFits_freshInput _

theorem consistent_read {b : SensorBus} (h : b.Consistent) (sc : Scan) (i : InputNo) (reply : SensorReply) :
    (b.read sc i reply).Consistent := by
  constructor
  intro j
  show InputFits (Bank.nth b.applied j) (Bank.nth (Bank.put b.inputs i _) j)
  rw [Bank.nth_put]
  split
  · rename_i hij
    subst hij
    exact inputFits_after (h.fits i) reply
  · exact h.fits j

/-- An image installed leaves every mapped input LOST (R11). -/
theorem consistent_install (s : State) (i : Image) (st : ImageStatus) : (s.install i st).sbe.Consistent := by
  constructor
  intro k
  have hn : Bank.nth (s.install i st).sbe.inputs k = freshInput (Bank.nth i.map k) := by simp [State.install, Bank.nth]
  rw [hn]
  exact inputFits_freshInput _

/-! ### The commands -/

/-- While the part does not run nothing happens. -/
theorem whileRunning_keeps {P : State → Prop} {s : State} {f : State → State} (h : P s) (hf : P s → P (f s)) :
    P (s.whileRunning f) := by
  unfold State.whileRunning
  cases s.run with
  | running => exact hf h
  | heldInReset => exact h
  | noSupply => exact h

/-- A command that acts while the part runs keeps what its action keeps. -/
theorem running_keeps (P : State → Prop) {s t : State} {f : State → State}
    (ht : Host.Outcome.next (φ := Fault) (ρ := Refusal) (s.whileRunning f) = .next t) (h : P s) (hf : P s → P (f s)) :
    P t := by
  cases ht
  exact whileRunning_keeps h hf

theorem consistent_errorReply {s : State} (h : s.sbe.Consistent) (k q : Byte) (c : ReplyCode) :
    (s.errorReply k q c).sbe.Consistent := by
  unfold State.errorReply
  split
  · exact h
  · exact h

theorem consistent_frameTaken {s : State} (h : s.sbe.Consistent) (kind seq : Byte) {judge : State → Answer}
    (hj : ∀ s, s.sbe.Consistent → (judge s).state.sbe.Consistent) :
    (s.frameTaken kind seq judge).sbe.Consistent := by
  unfold State.frameTaken
  dsimp only
  split
  · exact consistent_errorReply (s := s.frameComplete) h _ _ _
  · split
    · exact h
    · exact hj s.frameComplete.takeSlot h

/-- The bytes of a frame change the receiver, queue FRAME-ERROR replies, and let the completed frame act. -/
theorem consistent_frameArrives {s : State} (h : s.sbe.Consistent) (kind seq : Byte) (body : List Byte) {f : State → State}
    (hf : ∀ s, s.sbe.Consistent → (f s).sbe.Consistent) :
    (s.frameArrives kind seq body f).sbe.Consistent :=
  frameArrives_keeps (P := fun s => s.sbe.Consistent) (fun _ _ h => h) (fun _ h => consistent_errorReply h _ _ _)
    (fun _ h => h) hf h

theorem consistent_receiveOther {s : State} (h : s.sbe.Consistent) (bytes : List RxByte) :
    (s.receive otherFrame bytes).sbe.Consistent :=
  receive_keeps (P := fun s => s.sbe.Consistent) (on := otherFrame) (fun _ _ h => h)
    (fun _ h => consistent_errorReply h _ _ _)
    (fun _ _ _ _ h => h) h bytes

theorem consistent_judgeRequest {s : State} (h : s.sbe.Consistent) (kind : Byte) (fits : Bool) {owner : State → Answer}
    (ho : ∀ s, Owned s (owner s).state) : (s.judgeRequest kind fits owner).state.sbe.Consistent := by
  unfold State.judgeRequest
  split
  · exact h
  · split
    · exact consistent_of_eq h (ho s).inputs (ho s).applied
    · exact h

/-- A request leaves the inputs alone, whatever becomes of it. -/
theorem consistent_request {s t : State} (h : s.sbe.Consistent) {kind : Byte} {f : Frame} {owner : State → Answer}
    (ho : ∀ s, Owned s (owner s).state) (ht : s.request kind f owner = .next t) : t.sbe.Consistent := by
  exact running_keeps (·.sbe.Consistent) ht h fun h => consistent_frameArrives h _ _ _ fun _ h =>
    consistent_frameTaken h _ _ fun _ h => consistent_judgeRequest h _ _ ho

/-- What only the panel link takes leaves the sensor bus engine alone. -/
theorem panelChar_sbe (s : State) (b : Byte) : (s.panelChar b).sbe = s.sbe := by
  have take : ∀ (s : State) cs, (s.takeLine cs).sbe = s.sbe := fun s cs => by
    unfold State.takeLine
    split <;> rfl
  have reject : ∀ s : State, s.rejectLine.sbe = s.sbe := fun s => by
    unfold State.rejectLine
    split <;> rfl
  unfold State.panelChar
  split
  · split
    · exact reject _
    · split
      · rfl
      · exact take _ _
  · repeat' split
    all_goals rfl

theorem panelChars_sbe (s : State) (bs : List Byte) : (s.panelChars bs).sbe = s.sbe := by
  have fold : (bs.foldl State.panelChar s).sbe = s.sbe := by
    induction bs generalizing s with
    | nil => rfl
    | cons b bs ih => exact (ih _).trans (panelChar_sbe s b)
  unfold State.panelChars
  split
  · rfl
  all_goals exact fold

theorem abandonSave_sbe (s : State) : s.abandonSave.sbe = s.sbe := by
  unfold State.abandonSave
  split <;> rfl

theorem softReset_sbe (s : State) : s.softReset.sbe = s.sbe := abandonSave_sbe s

theorem replyLeft_sbe (s : State) : s.replyLeft.sbe = s.sbe := by
  unfold State.replyLeft
  split
  · rfl
  · dsimp only
    split
    · exact softReset_sbe s
    · rfl

/-- An event of the plant acts on the engine alone. -/
theorem plantEvent_sbe {s t : State} {c : Instr} (hc : plantEvent c = true) (h : exec c s = .next t) : t.sbe = s.sbe := by
  cases c <;> first | exact absurd hc Bool.false_ne_true | exact running_keeps (·.sbe = s.sbe) h rfl fun _ => rfl

/-- What the end of a scan makes of the state apart from the engine's own work: the scan over, the readings formed
anew, the rest as it was (R5, R12). -/
structure ScanOver (s t : State) : Prop where
  scan : t.sbe.scan = none
  readings : t.sbe.readings = s.sbe.formReadings
  map : t.sbe.map = s.sbe.map
  applied : t.sbe.applied = s.sbe.applied
  inputs : t.sbe.inputs = s.sbe.inputs
  tab : t.tab = s.tab
  link : t.link = s.link
  panel : t.panel = s.panel
  stored : t.stored = s.stored
  run : t.run = s.run
  cfc : t.cfc = { s.cfc with parkTimer := t.cfc.parkTimer }
  target : t.eng.crg.target = s.eng.crg.target
  settings : t.eng.crg.settings = s.eng.crg.settings

theorem ScanOver.parkTick {s t : State} (h : ScanOver s t) : ScanOver s t.parkTick := by
  unfold State.parkTick
  split
  · exact { h with cfc := by rw [h.cfc] }
  all_goals exact h

theorem ScanOver.parkIfDue {s t : State} (h : ScanOver s t) : ScanOver s t.parkIfDue := by
  unfold State.parkIfDue
  split
  · exact { h with
      cfc := by simp only [State.enterParked]; rw [h.cfc]
      scan := by simp only [State.enterParked]; rw [h.scan]; rfl }
  · exact h

/-- What a scan's end hands to the blocks. -/
def State.scanInput (s : State) (f : Feedback) (ord : ScanOrder) : ScanInput :=
  ⟨s.sbe.formReadings, Meter.all.foldl (fun b m => Bank.put b m.idx (s.sbe.meterInputs m)) (Vector.replicate 4 none),
    f, ord, s.cfc.lockout⟩

/-- The state at the end of a full or the waking scan once the blocks have done their work, before the park timer. -/
def State.afterFullScan (s : State) (k : ScanKind) (f : Feedback) (ord : ScanOrder) : State :=
  let e := s.eng.fullScanEnd s.tab (s.scanInput f ord)
  { s with eng := { e with wake := wakeAfter k e.wake }
           sbe := { s.sbe with readings := s.sbe.formReadings, scan := none } }

theorem endScan_parked (s : State) (f : Feedback) (ord : ScanOrder) : s.endScan .parked f ord
    = { s with eng := s.eng.superviseZones s.tab s.sbe.formReadings
               sbe := { s.sbe with readings := s.sbe.formReadings, scan := none } } := rfl

theorem endScan_full (s : State) {k : ScanKind} (h : k ≠ .parked) (f : Feedback) (ord : ScanOrder) :
    s.endScan k f ord = match ord.due with
      | .within => (s.afterFullScan k f ord).parkTick.parkIfDue
      | .separate => (s.afterFullScan k f ord).parkTick := by
  cases k with
  | parked => exact absurd rfl h
  | full => rfl
  | waking => rfl

theorem scanOver_of_flow {s : State} {e : Engine} (h : Flow s.eng e) : ScanOver s
    { s with eng := e, sbe := { s.sbe with readings := s.sbe.formReadings, scan := none } } :=
  ⟨rfl, rfl, rfl, rfl, rfl, rfl, rfl, rfl, rfl, rfl, rfl, h.target, h.settings⟩

theorem scanOver_of_flow_wake {s : State} {e : Engine} (h : Flow s.eng e) (w : WakePhase) : ScanOver s
    { s with eng := { e with wake := w }, sbe := { s.sbe with readings := s.sbe.formReadings, scan := none } } :=
  ⟨rfl, rfl, rfl, rfl, rfl, rfl, rfl, rfl, rfl, rfl, rfl, h.target, h.settings⟩

theorem scanOver_afterFullScan (s : State) (k : ScanKind) (f : Feedback) (ord : ScanOrder) :
    ScanOver s (s.afterFullScan k f ord) := scanOver_of_flow_wake (flow_fullScanEnd _ _ _) _

theorem scanOver_endScan (s : State) (k : ScanKind) (f : Feedback) (ord : ScanOrder) :
    ScanOver s (s.endScan k f ord) := by
  by_cases hk : k = .parked
  · subst hk
    rw [endScan_parked]
    exact scanOver_of_flow (flow_superviseZones s.eng s.tab s.sbe.formReadings)
  · have h := (scanOver_afterFullScan s k f ord).parkTick
    rw [endScan_full s hk]
    cases ord.due with
    | within => exact h.parkIfDue
    | separate => exact h

/-- The end of start-up installs an image or the defaults (R191). -/
theorem finishStart_eq (s : State) (r : ImageRead) : ∃ s' i st, s.finishStart r = State.install s' i st := by
  unfold State.finishStart
  split
  · exact ⟨_, _, _, rfl⟩
  · split
    · exact ⟨_, _, _, rfl⟩
    · exact ⟨_, _, _, rfl⟩

theorem consistent_whileSaving {s : State} (h : s.sbe.Consistent) {f : State → State} (hf : (f s).sbe.Consistent) :
    (s.whileSaving f).sbe.Consistent := by
  unfold State.whileSaving
  split <;> assumption

theorem consistent_betweenScans {s : State} (h : s.sbe.Consistent) {f : State → State} (hf : (f s).sbe.Consistent) :
    (s.betweenScans f).sbe.Consistent := by
  unfold State.betweenScans
  split <;> assumption

theorem consistent_panelChars {s : State} (h : s.sbe.Consistent) (bs : List Byte) : (s.panelChars bs).sbe.Consistent := by
  rw [panelChars_sbe]
  exact h

theorem consistent_replyLeft {s : State} (h : s.sbe.Consistent) : s.replyLeft.sbe.Consistent := by
  rw [replyLeft_sbe]
  exact h

theorem consistent_parkedTick {s : State} (h : s.sbe.Consistent) : s.parkedTick.sbe.Consistent := by
  unfold State.parkedTick
  dsimp only
  split
  · exact consistent_of_eq h rfl rfl
  all_goals exact h

/-- A scan's own rows (R4 to R12). -/
theorem consistent_scanRow {s t : State} (h : s.sbe.Consistent) :
    (execScanStart s = .next t → t.sbe.Consistent) ∧ (execParkedScanStart s = .next t → t.sbe.Consistent)
    ∧ (execWakingScanStart s = .next t → t.sbe.Consistent) ∧ (∀ i r, execSensorRead i r s = .next t → t.sbe.Consistent)
    ∧ (∀ i, execInputLost i s = .next t → t.sbe.Consistent) ∧ (∀ f ord, execScanEnd f ord s = .next t → t.sbe.Consistent) := by
  refine ⟨?start, ?parked, ?waking, fun i r => ?read, fun i => ?lost, fun f ord => ?ends⟩ <;>
    refine fun ht => running_keeps (·.sbe.Consistent) ht h fun h => ?_
  case start =>
    split
    · exact consistent_start h _
    · exact h
  case parked =>
    split
    · dsimp only [State.parkedScanStart]
      exact consistent_of_eq (consistent_start h .parked) rfl rfl
    · exact h
  case waking =>
    split
    · exact consistent_start h _
    · exact h
  case read =>
    split
    · exact h
    · split
      · exact consistent_read h _ _ _
      · exact h
  case lost =>
    split
    · exact h
    · split
      · exact consistent_read h _ _ _
      · exact h
  case ends =>
    split
    · exact consistent_of_eq h (scanOver_endScan ..).inputs (scanOver_endScan ..).applied
    · exact h
    · exact h

/-- The rows of the supply and of the reset pin leave the engine as it was, or as at power-on. -/
theorem consistent_supplyRow {s t : State} (h : s.sbe.Consistent) :
    (∀ straps, execResetPinRelease straps s = .next t → t.sbe.Consistent)
    ∧ (execResetPinAssert s = .next t → t.sbe.Consistent) ∧ (execPowerLoss s = .next t → t.sbe.Consistent) := by
  refine ⟨fun straps ht => ?release, fun ht => ?assert, fun ht => ?loss⟩
  case release =>
    unfold execResetPinRelease at ht
    split at ht <;> cases ht
    · exact consistent_initial
    · exact consistent_initial
    · exact h
  case assert =>
    unfold execResetPinAssert at ht
    split at ht <;> cases ht
    · exact consistent_initial
    · exact h
    · exact h
  case loss =>
    unfold execPowerLoss at ht
    split at ht <;> cases ht
    · exact consistent_initial
    · exact consistent_initial
    · exact h

/-- The frames that reach no owner: of an unknown kind, or with no slot free. -/
theorem consistent_unheardRow {s t : State} (h : s.sbe.Consistent) :
    (∀ kind f, execUnknownRequest kind f s = .next t → t.sbe.Consistent)
    ∧ (∀ kind f, execBusy kind f s = .next t → t.sbe.Consistent) := by
  refine ⟨fun kind f ht => ?unknown, fun kind f ht => ?busy⟩
  case unknown =>
    unfold execUnknownRequest at ht
    split at ht
    · cases ht; exact h
    · exact running_keeps (·.sbe.Consistent) ht h fun h => consistent_frameArrives h _ _ _ fun _ h =>
        consistent_frameTaken h _ _ fun _ h => h
  case busy =>
    unfold execBusy at ht
    split at ht
    · cases ht; exact h
    · exact running_keeps (·.sbe.Consistent) ht h fun h => consistent_frameArrives h _ _ _ fun s h =>
        consistent_errorReply (s := s.frameComplete) h _ _ _

/-- Every command keeps the inputs consistent. -/
theorem consistent_exec {s t : State} {c : Instr} (h : s.sbe.Consistent) (ht : exec c s = .next t) : t.sbe.Consistent := by
  rcases hq : requestOf c with _ | ⟨kind, f⟩
  case some =>
    obtain ⟨owner, he, ho⟩ := owner_of_request hq
    exact consistent_request h ho (he s ▸ ht)
  by_cases hp : plantEvent c = true
  · rw [plantEvent_sbe hp ht]
    exact h
  obtain ⟨hstart, hparked, hwaking, hread, hlost, hend⟩ := consistent_scanRow (t := t) h
  obtain ⟨hrelease, hassert, hloss⟩ := consistent_supplyRow (t := t) h
  obtain ⟨hunknown, hbusy⟩ := consistent_unheardRow (t := t) h
  have running {f : State → State} (ht : Host.Outcome.next (φ := Fault) (ρ := Refusal) (s.whileRunning f) = .next t)
      (hf : s.sbe.Consistent → (f s).sbe.Consistent) := running_keeps (·.sbe.Consistent) ht h hf
  cases c
  case scanStart => exact hstart ht
  case parkedScanStart => exact hparked ht
  case wakingScanStart => exact hwaking ht
  case sensorRead i r => exact hread i r ht
  case inputLost i => exact hlost i ht
  case scanEnd f ord => exact hend f ord ht
  case unknownRequest kind f => exact hunknown kind f ht
  case busy kind f => exact hbusy kind f ht
  case frameError bytes after =>
    exact running ht fun h => consistent_receiveOther (consistent_receiveOther h _) _
  case frameTimeout bytes =>
    exact running ht fun h => consistent_receiveOther (s := (s.receive otherFrame bytes.before).putRx .hunting)
      (consistent_receiveOther h bytes.before) _
  case replySent => exact running ht consistent_replyLeft
  case powerOnReset straps => cases ht; exact consistent_initial
  case resetPinRelease straps => exact hrelease straps ht
  case resetPinAssert => exact hassert ht
  case powerLoss => exact hloss ht
  case imageLoadComplete r =>
    refine running ht fun h => ?_
    split
    · obtain ⟨s', i, st, he⟩ := finishStart_eq s r
      rw [he]
      exact consistent_install s' i st
    all_goals exact h
  case parkTimerExpiry =>
    refine running ht fun h => ?_
    unfold State.parkIfDue
    split
    · exact consistent_of_eq h rfl rfl
    · exact h
  case outputEnableEnd =>
    refine running ht fun h => ?_
    split
    · dsimp only
      exact h
    · exact h
  case savePiece => exact running ht fun h => consistent_whileSaving h (consistent_betweenScans h h)
  case saveComplete => exact running ht fun h => consistent_whileSaving h (consistent_betweenScans h h)
  case saveFailed => exact running ht fun h => consistent_whileSaving h h
  case panelTargetLine rest => exact running ht fun h => consistent_panelChars h _
  case panelQueryLine => exact running ht fun h => consistent_panelChars h _
  case panelBadLine line => exact running ht fun h => consistent_panelChars h _
  case panelLineTimeout before after =>
    exact running ht fun h => consistent_panelChars (s := (s.panelChars before).emptyLine) (consistent_panelChars h before) _
  case panelReplySent => exact running ht fun h => h
  all_goals first | exact absurd rfl hp | exact absurd hq (Option.some_ne_none _)

/-- Settles O57: a step is a command or an idle step, and both keep the inputs consistent. -/
theorem inputsKept : Obligations.InputsKept := by
  intro s t h ht
  rw [← consistent_iff] at h ⊢
  unfold step at ht
  split at ht
  · exact running_keeps (·.sbe.Consistent) ht h consistent_parkedTick
  · rename_i c rest _
    exact consistent_exec (s := s.withPending rest) h ht

end Sys2Proof.Machine
end

section
/-! O38 and O40: the readings a scan end forms, and what it makes of a meter. -/

namespace Sys2Proof.Machine

open Sys2Proof

/-! ### The readings of a scan's end (O38) -/

/-- A reading is the count, the highest, the lowest and the rounded mean of its values (R12). -/
theorem readingOf_eq (vs : List Int) : readingOf vs
    = ⟨vs.length, vs.max?, vs.min?, if vs = [] then none else some (roundHigher vs.sum vs.length)⟩ := by
  cases vs with
  | nil => rfl
  | cons v l => simp only [readingOf, List.max?_cons', List.min?_cons', List.cons_ne_nil, if_false]

theorem nth_formReadings (b : SensorBus) (z : Zone) : Bank.nth b.formReadings z.idx = readingOf (b.zoneValues z) := by
  cases z <;> simp [SensorBus.formReadings, Zone.all, Zone.idx, Bank.nth_put]

/-- A SCAN_END row whose scan has read every input ends that scan. -/
theorem exec_scanEnd {s : State} {k : ScanKind} (hrun : s.run = .running) (hscan : s.sbe.scan = some ⟨k, []⟩)
    (f : Feedback) (ord : ScanOrder) : exec (.scanEnd f ord) s = .next (s.endScan k f ord) := by
  show execScanEnd f ord s = _
  simp [execScanEnd, State.whileRunning, hrun, hscan]

/-- Settles O38: a scan end leaves what ScanOver lists, and the readings it forms are those of the zones' valid values. -/
theorem scanEndReadings : Obligations.ScanEndReadings := by
  intro s f ord k hrun hscan
  have h := scanOver_endScan s k f ord
  refine ⟨_, exec_scanEnd hrun hscan f ord, h.scan, fun z => ?_, h.map, h.applied, h.inputs, h.tab, h.link, h.panel,
    h.stored, h.run, h.cfc, h.target, h.settings⟩
  have hv : s.sbe.zoneValues z = (List.finRange 32).filterMap (fun i : InputNo =>
      if Bank.nth s.sbe.applied i = .zoneTemp z then
        (match Bank.nth s.sbe.inputs i with
          | none => none
          | some r => if r.status = .valid then r.value else none)
      else none) := by
    refine List.filterMap_congr fun i _ => ?_
    congr 1
    cases Bank.nth s.sbe.inputs i with
    | none => rfl
    | some r => cases hs : r.status <;> simp [InputRec.current, hs]
  rw [h.readings, nth_formReadings, hv]
  exact readingOf_eq _

/-! ### The judgement of one meter (O40) -/

/-- Whether a meter's inputs judge it at this scan end: it is in no hand-over, or its hand-over has ended (R14, R20). -/
def MeterRec.isJudged (x : MeterRec) : Prop := x.state ≠ .handOver ∨ x.handOverEnded = true

/-- The state a meter is judged from: its own, or the one recorded before a hand-over that has ended (R20). -/
def MeterRec.was (x : MeterRec) (y : MeterState) : Prop :=
  x.state = y ∨ x.state = .handOver ∧ x.handOverEnded = true ∧ x.before = some y

theorem judge_of_inputs {x : MeterRec} (c : MeterTuning) (i : MeterInputs) (h : x.isJudged) : (x.judge c (some i)).meter
    = ⟨.valid, some (i.rate c.coolant), none, 0, none, (x.residue + i.rate c.coolant).tmod 10, false, false⟩ := by
  unfold MeterRec.judge
  rcases h with h | h
  · cases hs : x.state
    case handOver => exact absurd hs h
    all_goals rfl
  · cases hs : x.state
    case handOver => simp only [h, if_true]; rfl
    all_goals rfl

/-- The first loss of inputs of a meter that was VALID (R17). -/
theorem judge_of_valid {x : MeterRec} (c : MeterTuning) (h : x.was .valid) :
    x.judge c none = x.firstLoss (x.rate.getD 0) c.hold := by
  unfold MeterRec.judge
  rcases h with hs | ⟨hs, he, hb⟩
  · simp only [hs]
  · simp [hs, he, hb]

theorem firstLoss_holds {x : MeterRec} {rate : Int} {hold : Nat} (h : hold ≠ 0) (hr : x.rate = some rate) :
    (x.firstLoss rate hold).meter
      = ⟨.holding, some rate, some rate, 1, none, (x.residue + rate).tmod 10, false, false⟩ := by
  have hd : ¬ hold * 10 ≤ 1 := by omega
  simp [MeterRec.firstLoss, h, MeterRec.holdingAt, scanHeat, hr, hd]

theorem judge_of_holding {x : MeterRec} (c : MeterTuning) (h : x.was .holding) {rate : Int} (hh : x.held = some rate) :
    (x.judge c none).meter = ⟨.holding, x.rate, some rate, x.holdCount + 1, none, (x.residue + rate).tmod 10, false,
      decide (c.hold * 10 ≤ x.holdCount + 1)⟩ := by
  unfold MeterRec.judge
  rcases h with hs | ⟨hs, he, hb⟩
  · simp [hs, hh, MeterRec.holdingAt, scanHeat]
  · simp [hs, he, hb, hh, MeterRec.holdingAt, scanHeat]

theorem judge_lost {x : MeterRec} (c : MeterTuning) (h : x.state = .invalid ∨ x.was .valid ∧ c.hold = 0) :
    (x.judge c none).meter = .initial := by
  rcases h with hs | ⟨hw, h0⟩
  · unfold MeterRec.judge
    simp only [hs]
    rfl
  · rw [judge_of_valid c hw]
    simp [MeterRec.firstLoss, h0, MeterRec.lost]

/-- In HAND-OVER heat comes from the held rate, and valid inputs give a rate all the same (R15, R20). -/
theorem judge_of_handOver {x : MeterRec} (c : MeterTuning) (i : Option MeterInputs) (hs : x.state = .handOver)
    (he : x.handOverEnded = false) {rate : Int} (hh : x.held = some rate) :
    (x.judge c i).meter = { x with rate := x.rateFrom c i, residue := (x.residue + rate).tmod 10 } := by
  unfold MeterRec.judge
  simp [hs, he, hh, scanHeat]

/-! ### What a scan end does to a meter besides -/

/-- Every meter is as it was. -/
structure SameMeters (a b : Engine) : Prop where
  meters : b.meters = a.meters

theorem SameMeters.meter {a b : Engine} (h : SameMeters a b) (m : Meter) : b.meter m = a.meter m := by
  unfold Engine.meter
  rw [h.meters]

theorem sameMeters_judges : Judges SameMeters where
  refl _ := ⟨rfl⟩
  trans h k := ⟨k.meters.trans h.meters⟩
  putChannel _ _ _ := ⟨rfl⟩
  putMar _ _ := ⟨rfl⟩
  putValve _ _ _ := ⟨rfl⟩
  setCircuit _ _ := ⟨rfl⟩
  putRegState _ _ := ⟨rfl⟩
  hand _ _ := ⟨rfl⟩
  setOutcome _ _ _ := ⟨rfl⟩
  clearPending _ _ := ⟨rfl⟩
  setPending _ _ := ⟨rfl⟩
  putZone _ _ _ := ⟨rfl⟩
  wakeUp _ := ⟨by simp⟩

/-- Nothing happens to a meter but that it is told of the end of its hand-over (R20). -/
def Told (m : Meter) (a b : Engine) : Prop := b.meter m = a.meter m ∨ b.meter m = (a.meter m).tellEnded

theorem tellEnded_tellEnded (x : MeterRec) : x.tellEnded.tellEnded = x.tellEnded := by
  unfold MeterRec.tellEnded
  cases hs : x.state <;> simp [hs]

theorem Told.trans {m : Meter} {a b c : Engine} (h : Told m a b) (k : Told m b c) : Told m a c := by
  rcases h with h | h <;> rcases k with k | k
  · exact .inl (k.trans h)
  · exact .inr (by rw [k, h])
  · exact .inr (by rw [k, h])
  · exact .inr (by rw [k, h, tellEnded_tellEnded])

theorem told_judges (m : Meter) : Judges (Told m) where
  refl _ := .inl rfl
  trans := .trans
  putChannel _ _ _ := .inl rfl
  putMar _ _ := .inl rfl
  putValve _ _ _ := .inl rfl
  setCircuit _ _ := .inl rfl
  putRegState _ _ := .inl rfl
  hand _ _ := .inl rfl
  setOutcome _ _ _ := .inl rfl
  clearPending _ _ := .inl rfl
  setPending _ _ := .inl rfl
  putZone _ _ _ := .inl rfl
  wakeUp e := .inl (SameMeters.meter (sameMeters_judges.wakeUp e) m)

theorem told_endHandOver (m : Meter) (e : Engine) : Told m e e.endHandOver := by
  unfold Engine.endHandOver
  split
  · exact .inl rfl
  · unfold Engine.meterHandOverEnded
    split
    · exact .inl rfl
    · rename_i k _
      by_cases hk : k = m
      · subst hk
        exact .inr (Engine.meter_putMeter_self _ _ _)
      · exact .inl (Engine.meter_putMeter_ne _ _ hk)

theorem told_handOverFault (m : Meter) (e : Engine) (o : OutputNo) : Told m e (e.handOverFault o) := by
  unfold Engine.handOverFault
  split
  · exact .inl rfl
  · split
    · exact told_endHandOver m e
    · split
      · exact .inl rfl
      · exact .inl rfl

theorem told_outputFault (m : Meter) (e : Engine) (t : Tables) (o : OutputNo) (k : OutputFault) :
    Told m e (e.outputFault t o k) := by
  have := told_judges m
  have h1 : Via (Told m) e ((e.putOutput o ((e.output o).faultedWith k)).handOverFault o) :=
    ⟨Told.trans (b := e.putOutput o ((e.output o).faultedWith k)) (.inl rfl) (told_handOverFault m _ o)⟩
  unfold Engine.outputFault
  dsimp only
  refine (Via.trans ?_ (via_hand _ _)).it
  split
  · exact h1
  · exact h1.trans (via_revokeHolders _ _ _)

theorem told_overcurrents (m : Meter) (e : Engine) (t : Tables) : Told m e (e.overcurrents t) := by
  have := told_judges m
  refine (Via.foldl (R := Told m) _ (fun e o => ⟨?_⟩) _ _).it
  unfold Engine.judgeOvercurrent
  dsimp only
  split
  · split
    · exact told_outputFault m e t o _
    · exact .inl rfl
    · exact .inl rfl
  · exact .inl rfl

theorem told_whenReady {m : Meter} {f : Engine → Engine} (h : ∀ e, Told m e (f e)) (e : Engine) :
    Told m e (whenReady f e) := by
  unfold whenReady
  split
  · exact h e
  all_goals exact .inl rfl

theorem told_readFeedback (m : Meter) (e : Engine) (s : Straps) (f : Feedback) : Told m e (e.readFeedback s f) := by
  have := told_judges m
  unfold Engine.readFeedback
  refine (Via.trans (R := Told m) (Via.foldl _ (fun e o => ⟨?_⟩) _ _) (Via.foldl _ (fun _ _ => via_putValve _ _ _) _ _)).it
  split <;> exact .inl rfl

theorem told_handOverStep (m : Meter) (e : Engine) : Told m e e.handOverStep := by
  unfold Engine.handOverStep
  split
  · exact .inl rfl
  · dsimp only
    split <;> exact .inl rfl

theorem told_driveOutputs (m : Meter) (e : Engine) (s : Straps) : Told m e (e.driveOutputs s) := by
  have := told_judges m
  unfold Engine.driveOutputs
  refine (Via.trans (R := Told m) (Via.foldl _ (fun e o => ⟨?_⟩) _ _) ⟨told_handOverStep m _⟩).it
  split
  · unfold Engine.driveOutput
    dsimp only
    split
    · exact .inl rfl
    · exact .inl rfl
    · split <;> exact .inl rfl
  · exact .inl rfl

/-- One meter's judgement leaves the others, and sets its own record: its report to the channels changes no meter. -/
theorem meter_judgeMeter (t : Tables) (i : Meter → Option MeterInputs) (x : Engine × Bank (Option Int) 4) (k m : Meter) :
    (Engine.judgeMeter t (Engine.grantScan t) i x k).1.meter m
      = if k = m then ((x.1.meter m).judge ⟨t.tuning.coolant, t.tuning.meterHold⟩ (i m)).meter else x.1.meter m := by
  have := sameMeters_judges
  have hr : ∀ e r, (Engine.meterReport e t (Engine.grantScan t) k r).meter m = e.meter m := fun e r =>
    (via_meterReport (R := SameMeters) (via_grantScan t) e t k r).it.meter m
  rw [Engine.judgeMeter_fst, hr]
  split
  · rename_i hk
    subst hk
    exact Engine.meter_putMeter_self _ _ _
  · rename_i hk
    exact Engine.meter_putMeter_ne _ _ hk

theorem meter_judgeMeters (e : Engine) (t : Tables) (i : Meter → Option MeterInputs) (m : Meter) :
    (e.judgeMeters t (Engine.grantScan t) i).1.meter m
      = ((e.meter m).judge ⟨t.tuning.coolant, t.tuning.meterHold⟩ (i m)).meter := by
  simp only [Engine.judgeMeters, Meter.all, List.foldl_cons, List.foldl_nil, meter_judgeMeter]
  cases m <;> simp

/-- The inputs a scan's end hands to a meter are those of the bus. -/
theorem nth_scanInput_meters (s : State) (f : Feedback) (ord : ScanOrder) (m : Meter) :
    Bank.nth (s.scanInput f ord).meters m.idx = s.sbe.meterInputs m := by
  cases m <;> simp [State.scanInput, Meter.all, Meter.idx, Bank.nth_put]

/-- A full scan's end, its expiries coming as rows of their own, judges a meter and at most tells it of a hand-over's end. -/
theorem told_fullScanEnd (e : Engine) (t : Tables) (x : ScanInput) (m : Meter) (hd : x.order.due = .separate) :
    let j := ((e.meter m).judge ⟨t.tuning.coolant, t.tuning.meterHold⟩ (Bank.nth x.meters m.idx)).meter
    (e.fullScanEnd t x).meter m = j ∨ (e.fullScanEnd t x).meter m = j.tellEnded := by
  intro j
  have := sameMeters_judges
  have := told_judges m
  have h1 : ((e.verdicts t x.readings).equalizeFall 1).meter m = e.meter m :=
    ((via_verdicts (R := SameMeters) e t x.readings).trans (via_equalizeFall _ 1)).it.meter m
  have h2 := meter_judgeMeters ((e.verdicts t x.readings).equalizeFall 1) t (fun m => Bank.nth x.meters m.idx) m
  rw [h1] at h2
  have hread : ∀ e, Told m e (whenReady (fun e => e.readFeedback t.straps x.feedback) e) :=
    told_whenReady fun e => told_readFeedback m e _ _
  have hjudge : ∀ e, Told m e (whenReady (Engine.judgeOutputs t .separate) e) :=
    told_whenReady fun e => told_overcurrents m e t
  have hwork : ∀ e f b, Told m e (Engine.judgeWork e t x f b) := fun e f b => (via_judgeWork e t x f b).it
  have hdrive : ∀ e, Told m e (whenReady (fun e => e.driveOutputs t.straps) e) :=
    told_whenReady fun e => told_driveOutputs m e _
  have hidle : ∀ e, Told m e (whenReady (fun e => e) e) := told_whenReady fun _ => .inl rfl
  unfold Engine.fullScanEnd
  dsimp only
  rw [hd]
  dsimp only [whenWithin]
  generalize Engine.judgeMeters _ _ _ _ = p at h2 ⊢
  suffices h : ∀ u, Told m p.1 u → u.meter m = j ∨ u.meter m = j.tellEnded by
    refine h _ ?_
    cases x.order.faultsFirst with
    | true => exact (((((hread _).trans (hjudge _)).trans (hwork _ _ _)).trans (hdrive _)).trans (hidle _))
    | false => exact (((((hread _).trans (hwork _ _ _)).trans (hjudge _)).trans (hdrive _)).trans (hidle _))
  intro u hu
  unfold Told at hu
  rwa [h2] at hu

/-- The meter after a full or waking scan's end whose expiries come as rows of their own. -/
theorem meter_endScan (s : State) {k : ScanKind} (hk : k ≠ .parked) (f : Feedback) {ord : ScanOrder} (hd : ord.due = .separate)
    (m : Meter) :
    let j := ((s.eng.meter m).judge ⟨s.tab.tuning.coolant, s.tab.tuning.meterHold⟩ (s.sbe.meterInputs m)).meter
    (s.endScan k f ord).eng.meter m = j ∨ (s.endScan k f ord).eng.meter m = j.tellEnded := by
  have h := told_fullScanEnd s.eng s.tab (s.scanInput f ord) m hd
  rw [nth_scanInput_meters] at h
  have he : (s.endScan k f ord).eng.meter m = (s.eng.fullScanEnd s.tab (s.scanInput f ord)).meter m := by
    rw [endScan_full s hk, hd]
    dsimp only [State.afterFullScan, State.parkTick, Engine.meter]
    split <;> rfl
  rw [he]
  exact h

theorem tellEnded_of_state_ne {x : MeterRec} (h : x.state ≠ .handOver) : x.tellEnded = x := by
  unfold MeterRec.tellEnded
  cases hs : x.state
  case handOver => exact absurd hs h
  all_goals rfl

theorem tellEnded_of_handOver {x : MeterRec} (h : x.state = .handOver) : x.tellEnded = { x with handOverEnded := true } := by
  simp only [MeterRec.tellEnded, h]

/-- Settles O40: the judgement of the meter by its state, which the rest of the scan end leaves save
for the word that a hand-over has ended. -/
theorem meterJudged : Obligations.MeterJudged := by
  intro s f ord k m hrun hscan hk hd x hold rateOf judged was
  have h := meter_endScan s hk f hd m
  have settled : ∀ y : MeterRec, (x.judge ⟨s.tab.tuning.coolant, hold⟩ (s.sbe.meterInputs m)).meter = y →
      y.state ≠ .handOver → (s.endScan k f ord).eng.meter m = y := fun y hy hn => by
    subst hy
    rcases h with h | h
    · exact h
    · exact h.trans (tellEnded_of_state_ne hn)
  refine ⟨_, exec_scanEnd hrun hscan f ord, fun i hj hi => ?measured, fun rate hi hw hr h0 => ?first,
    fun rate hi hw hh => ?holding, fun hi hl => ?lost, fun rate hs he hh => ?handOver⟩
  case measured =>
    refine settled _ ?_ nofun
    rw [hi]
    exact judge_of_inputs _ i hj
  case first =>
    refine settled _ ?_ nofun
    rw [hi, judge_of_valid _ hw, hr]
    exact firstLoss_holds h0 hr
  case holding =>
    refine settled _ ?_ nofun
    rw [hi]
    exact judge_of_holding _ hw hh
  case lost =>
    refine settled _ ?_ nofun
    rw [hi]
    exact judge_lost _ hl
  case handOver =>
    rw [judge_of_handOver _ _ hs he hh] at h
    rcases h with h | h
    · refine ⟨x.handOverEnded, h.trans ?_⟩
      cases s.sbe.meterInputs m <;> rfl
    · refine ⟨true, (h.trans (tellEnded_of_handOver hs)).trans ?_⟩
      cases s.sbe.meterInputs m <;> rfl

end Sys2Proof.Machine
end

section
/-! O37: how scans start, and what a read or a miss does to an input. -/

namespace Sys2Proof.Machine

open Sys2Proof

/-! ### The start of a scan -/

theorem nth_restarted (map applied : Bank MapEntry 32) (inputs : Bank (Option InputRec) 32) (i : InputNo) :
    Bank.nth (restarted map applied inputs) i = if Bank.nth map i = Bank.nth applied i then Bank.nth inputs i
      else freshInput (Bank.nth map i) := by
  simp [restarted, Bank.nth]

theorem freshInput_eq (m : MapEntry) : freshInput m = if m = .unused then none else some ⟨.lost, none, 3⟩ := by
  cases m <;> simp [freshInput, InputRec.lostRec]

/-- What every scan's start makes of the sensor bus engine: the map applied, the changed inputs restarted (R4). -/
theorem start_restarts (b : SensorBus) (k : ScanKind) : (b.start k).map = b.map ∧ (b.start k).applied = b.map
    ∧ (b.start k).readings = b.readings
    ∧ ∀ i, Bank.nth (b.start k).inputs i = if Bank.nth b.map i = Bank.nth b.applied i then Bank.nth b.inputs i
        else if Bank.nth b.map i = .unused then none else some ⟨.lost, none, 3⟩ :=
  ⟨rfl, rfl, rfl, fun i => (nth_restarted _ _ _ i).trans (by rw [freshInput_eq])⟩

/-- The inputs a scan of a kind reads, in number order. -/
def SensorBus.readList (b : SensorBus) (k : ScanKind) : List InputNo := allInputs.filter (fun i => readBy k (Bank.nth b.map i))

theorem start_scan (b : SensorBus) (k : ScanKind) : (b.start k).scan = some ⟨k, b.readList k⟩ := rfl

/-- A full and the waking scan read every mapped input (R5, R6). -/
theorem readList_mapped (b : SensorBus) {k : ScanKind} (h : k ≠ .parked) :
    b.readList k = (List.finRange 32).filter (fun i => decide (Bank.nth b.map i ≠ .unused)) := by
  refine List.filter_congr fun i _ => ?_
  cases k
  case parked => exact absurd rfl h
  all_goals cases Bank.nth b.map i <;> rfl

theorem readBy_parked_iff (m : MapEntry) : readBy .parked m = true ↔ ∃ z, m = .zoneTemp z := by
  cases m <;> simp [readBy]

/-- A parked scan reads the ZONE-TEMP inputs (R6). -/
theorem mem_readList_parked (b : SensorBus) (i : InputNo) :
    i ∈ b.readList .parked ↔ ∃ z, Bank.nth b.map i = .zoneTemp z := by
  rw [← readBy_parked_iff]
  simp [SensorBus.readList, allInputs]

theorem readList_pairwise (b : SensorBus) (k : ScanKind) : (b.readList k).Pairwise (· < ·) :=
  (List.pairwise_lt_finRange 32).filter _

/-! ### The clock of a parked part (R105) -/

theorem parkedClock_steady {e : Engine} (h : e.mar.comp.condition = .steady) (t : Tables) (n : Nat) :
    e.parkedClock t n = e := by
  simp [Engine.parkedClock, Engine.equalizeFall, h, Engine.equalizeIfOver, Engine.equalizeOver]

theorem parkedClock_running {e : Engine} {m : Circuit} {n k : Nat} (h : e.mar.comp.condition = .equalizing m n) (hk : k < n)
    (t : Tables) : e.parkedClock t k
      = { e with mar := { e.mar with comp := { e.mar.comp with condition := .equalizing m (n - k) } } } := by
  have hne : n - k ≠ 0 := by omega
  simp [Engine.parkedClock, Engine.equalizeFall, h, Engine.equalizeIfOver, Engine.equalizeOver, hne]

theorem parkedClock_over {e : Engine} {m : Circuit} {n k : Nat} (h : e.mar.comp.condition = .equalizing m n) (hk : n ≤ k)
    (t : Tables) : e.parkedClock t k = Engine.grantScan t { e with
      mar := { e.mar with comp := ⟨some m, .steady⟩ }, ost := { e.ost with circuit := m } } := by
  have h0 : n - k = 0 := by omega
  simp [Engine.parkedClock, Engine.equalizeFall, h, Engine.equalizeIfOver, Engine.equalizeOver, h0, Engine.equalizeEnd,
    Engine.setCircuit]

/-! ### The rows of a scan -/

section
variable {s : State} (hrun : s.run = .running)
include hrun

theorem exec_scanStart (hscan : s.sbe.scan = none)
    (hp : s.eng.part = .ready ∨ s.eng.part = .waking ∧ s.eng.wake = .outputEnable) :
    exec .scanStart s = .next { s with sbe := s.sbe.start .full } := by
  have hm : s.mayScan = true := by
    rcases hp with h | ⟨h, hw⟩
    · simp [State.mayScan, hscan, h]
    · simp [State.mayScan, hscan, h, hw]
  show execScanStart s = _
  simp [execScanStart, State.whileRunning, hrun, hm]

theorem exec_parkedScanStart (hscan : s.sbe.scan = none) (hp : s.eng.part = .parked) :
    exec .parkedScanStart s = .next s.parkedScanStart := by
  show execParkedScanStart s = _
  simp [execParkedScanStart, State.whileRunning, hrun, hscan, hp]

theorem exec_wakingScanStart (hscan : s.sbe.scan = none) (hp : s.eng.part = .waking) (hw : s.eng.wake = .scanDue) :
    exec .wakingScanStart s = .next { s with sbe := s.sbe.start .waking, eng := { s.eng with wake := .wakingScan } } := by
  show execWakingScanStart s = _
  simp [execWakingScanStart, State.whileRunning, hrun, hscan, hp, hw]

variable {k : ScanKind} {i : InputNo} {rest : List InputNo} {r : InputRec} (hscan : s.sbe.scan = some ⟨k, i :: rest⟩)
  (hr : Bank.nth s.sbe.inputs i = some r)
include hscan hr

/-- The read of the input whose turn it is (R5, R9). -/
theorem exec_sensorRead (reply : SensorReply) : exec (.sensorRead i reply) s = .next { s with
    sbe := { s.sbe with inputs := Bank.put s.sbe.inputs i (some (r.after ((Bank.nth s.sbe.applied i).readValue reply)))
                        scan := some ⟨k, rest⟩ } } := by
  show execSensorRead i reply s = _
  simp [execSensorRead, State.whileRunning, hrun, hscan, hr, Scan.readsNext, SensorBus.read]

/-- The row of an input that is lost is its third miss (R10). -/
theorem exec_inputLost (hv : r.status = .valid) (hm : r.misses = 2) :
    exec (.inputLost i) s = exec (.sensorRead i .noAnswer) s := by
  show execInputLost i s = execSensorRead i .noAnswer s
  simp [execInputLost, execSensorRead, State.whileRunning, hrun, hscan, hr, Scan.readsNext, InputRec.atLastMiss, hv, hm]

end

theorem missed_kept {r : InputRec} (hv : r.status = .valid) (hm : r.misses < 2) :
    r.missed = ⟨.valid, r.value, r.misses + 1⟩ := by
  simp [InputRec.missed, hv, show r.misses + 1 < 3 by omega]

theorem missed_lost {r : InputRec} (h : r.status = .lost ∨ 2 ≤ r.misses) : r.missed = ⟨.lost, none, 3⟩ := by
  unfold InputRec.missed
  rcases h with h | h
  · rw [h]
  · cases r.status
    · simp [show ¬ r.misses + 1 < 3 by omega]
    · rfl

/-- Settles O37: the three starts by the one operation that starts a scan, and the reads by the record after a value or a miss. -/
theorem scansAndReads : Obligations.ScansAndReads := by
  refine ⟨fun s hrun hscan => ?_, fun s k i rest r hrun hscan hr => ?_⟩
  · intro restarts mapped
    refine ⟨fun hp => ?full, fun hp => ?parked, fun hp hw => ?waking⟩
    case full =>
      refine ⟨_, exec_scanStart hrun hscan hp, start_restarts _ _, ?_⟩
      rw [start_scan, readList_mapped s.sbe (k := .full) nofun]
    case waking =>
      refine ⟨_, exec_wakingScanStart hrun hscan hp hw, start_restarts _ _, ?_⟩
      rw [start_scan, readList_mapped s.sbe (k := .waking) nofun]
    case parked =>
      exact ⟨_, _, _, exec_parkedScanStart hrun hscan hp, start_restarts s.sbe .parked, start_scan s.sbe .parked, rfl,
        readList_pairwise _ _, mem_readList_parked _, fun h => parkedClock_steady h _ _,
        fun m n h hn => parkedClock_running h hn _, fun m n h hn => parkedClock_over h hn _⟩
  · intro becomes misses
    have read := exec_sensorRead hrun hscan hr
    have value : ∀ v, (Bank.nth s.sbe.applied i).accepts v = true → becomes (.sensorRead i (.number v))
        ⟨.valid, some v, 0⟩ := by
      intro v hv
      have h := read (.number v)
      simp only [MapEntry.readValue, hv, if_true] at h
      exact h
    have miss : ∀ reply, (Bank.nth s.sbe.applied i).readValue reply = none → misses (.sensorRead i reply) := by
      intro reply hn
      have h := read reply
      rw [hn] at h
      refine ⟨fun hv hm => ?_, fun hl => ?_⟩
      · rw [← missed_kept hv hm]
        exact h
      · rw [← missed_lost hl]
        exact h
    refine ⟨value, fun v hv => miss _ ?_, miss _ rfl, miss _ rfl, fun hv hm => ?_⟩
    · simp [MapEntry.readValue, hv]
    · exact (exec_inputLost hrun hscan hr hv hm).trans ((miss .noAnswer rfl).2 (.inr (by omega)))

end Sys2Proof.Machine
end

section
/-! O43: a hold that runs out ends the counting of its channels. -/

namespace Sys2Proof.Machine

open Sys2Proof

/-- What the hold-expiry report of a meter makes of an order whose path has a run-down (R77): on the meter,
a RUNNING one runs down METER-LOST with its counting stopped, and one in ENDING stops counting; the others stay. -/
def Order.afterExpiry (t : Tables) (m : Meter) (o : Order) : Order :=
  if (o.path t).meter = m then
    match o.phase with
    | .running => o.endingFor t (.meterLost m) true
    | .ending _ => o.stopCounting
    | .waiting | .setting => o
  else o

theorem order_regulatorTakes (e : Engine) (owner : Owner) (g : Ending) (d : ChannelNo) :
    (e.regulatorTakes owner g).order d = e.order d := by
  cases owner <;> rfl

theorem order_putOrder (e : Engine) (c d : ChannelNo) (o : Option Order) :
    (e.putOrder c o).order d = if c = d then o else e.order d := by
  by_cases h : c = d
  · subst h
    simp
  · rw [Engine.order_putOrder_ne e o h, if_neg h]

/-- The entry to ENDING changes the order of its channel alone, where the path has a run-down (R78). -/
theorem order_enterEnd (e : Engine) (t : Tables) (k : Engine → Engine) (c d : ChannelNo) (o : Order) (g : Ending) (b : Bool)
    (h : (o.path t).runDown ≠ 0) :
    (e.enterEnd t k c o g b).order d = if c = d then some (o.endingFor t g b) else e.order d := by
  have h0 : ¬ (t.entry o.copy.path).runDown = 0 := h
  simp only [Engine.enterEnd, Engine.endIfImmediate, h0, if_false]
  rw [order_regulatorTakes, order_putOrder]

/-- The order that stands on a channel put there again changes no order. -/
theorem order_putOrder_same (e : Engine) (c d : ChannelNo) : (e.putOrder c (e.order c)).order d = e.order d := by
  rw [order_putOrder]
  split
  · rename_i h
    rw [h]
  · rfl

/-- One channel takes the hold-expiry report: its own order changes as afterExpiry says, no other does. -/
theorem order_channelReport_expiry (t : Tables) (k : Engine → Engine) (m : Meter) (e : Engine) (c d : ChannelNo)
    (h : ∀ o, e.order c = some o → o.phase = .running → (o.path t).runDown ≠ 0) :
    (Engine.channelReport t k m .expiry e c).order d
      = (e.putOrder c ((e.order c).map (Order.afterExpiry t m))).order d := by
  have same := order_putOrder_same e c d
  unfold Engine.channelReport
  rcases ho : e.order c with _ | o <;> rw [ho] at same
  · exact same.symm
  · dsimp only [Option.map_some]
    by_cases hm : (o.path t).meter = m
    · rw [if_pos hm]
      cases hp : o.phase with
      | running =>
        dsimp only
        rw [order_enterEnd e t k c d o _ true (h o ho hp), ← order_putOrder]
        simp only [Order.afterExpiry, hm, hp, if_true]
      | ending r => simp only [Order.afterExpiry, hm, hp, if_true]
      | waiting => simpa only [Order.afterExpiry, hp, ite_self] using same.symm
      | setting => simpa only [Order.afterExpiry, hp, ite_self] using same.symm
    · rw [if_neg hm]
      simpa only [Order.afterExpiry, hm, if_false] using same.symm

/-- The report reaches every channel of a list once. -/
theorem order_reports_expiry (t : Tables) (k : Engine → Engine) (m : Meter) (l : List ChannelNo) (hl : l.Nodup) (e : Engine)
    (h : ∀ c ∈ l, ∀ o, e.order c = some o → o.phase = .running → (o.path t).runDown ≠ 0) (d : ChannelNo) :
    (l.foldl (Engine.channelReport t k m .expiry) e).order d
      = if d ∈ l then (e.order d).map (Order.afterExpiry t m) else e.order d := by
  induction l generalizing e with
  | nil => simp
  | cons c l ih =>
    obtain ⟨hc, hl⟩ := List.nodup_cons.1 hl
    have step : ∀ d, (Engine.channelReport t k m .expiry e c).order d
        = if c = d then (e.order c).map (Order.afterExpiry t m) else e.order d := fun d =>
      (order_channelReport_expiry t k m e c d (h c List.mem_cons_self)).trans (order_putOrder _ _ _ _)
    have later : ∀ x ∈ l, (Engine.channelReport t k m .expiry e c).order x = e.order x := fun x hx =>
      (step x).trans (if_neg fun hcx : c = x => hc (hcx ▸ hx))
    rw [List.foldl_cons, ih hl _ fun x hx o ho => h x (List.mem_cons_of_mem _ hx) o (later x hx ▸ ho)]
    by_cases hd : d ∈ l
    · rw [if_pos hd, if_pos (List.mem_cons_of_mem _ hd), later d hd]
    · rw [if_neg hd, step]
      by_cases hcd : c = d
      · rw [if_pos hcd, if_pos (hcd ▸ List.mem_cons_self), hcd]
      · rw [if_neg hcd, if_neg fun hm => (List.mem_cons.1 hm).elim (fun h => hcd h.symm) hd]

/-- What the expiry of a meter's hold does to every order. -/
theorem order_meterReport_expiry (e : Engine) (t : Tables) (k : Engine → Engine) (m : Meter)
    (h : ∀ c o, e.order c = some o → o.phase = .running → (o.path t).runDown ≠ 0) (d : ChannelNo) :
    (e.meterReport t k m .expiry).order d = (e.order d).map (Order.afterExpiry t m) :=
  (order_reports_expiry t k m allChannels (by decide) e (fun c _ => h c) d).trans (if_pos (mem_allChannels d))

theorem Grants.meter {a b : Engine} (h : Grants a b) (m : Meter) : b.meter m = a.meter m := by
  unfold Engine.meter
  rw [h.meters]

/-- The row of an expiry that is due: the meter is INVALID, and its report reaches every channel (R18, R77). -/
theorem exec_meterHoldExpiry {s : State} {m : Meter} (hrun : s.run = .running) (hst : (s.eng.meter m).state = .holding)
    (hdue : (s.eng.meter m).expiryDue = true)
    (h : ∀ c o, s.eng.order c = some o → o.phase = .running → (o.path s.tab).runDown ≠ 0) :
    ∃ e, exec (.meterHoldExpiry m) s = .next (s.putEngine e) ∧ e.meter m = .initial
      ∧ ∀ c, e.order c = (s.eng.order c).map (Order.afterExpiry s.tab m) := by
  refine ⟨(s.eng.putMeter m .initial).meterReport s.tab s.scanGrants m .expiry, ?_, ?_, ?_⟩
  · show execMeterHoldExpiry m s = _
    simp [execMeterHoldExpiry, State.onEngine, State.whileRunning, hrun, Engine.holdExpires, hst, hdue, MeterRec.lost]
  · exact ((grants_meterReport _ s.tab m .expiry).meter m).trans (Engine.meter_putMeter_self _ _ _)
  · exact order_meterReport_expiry (s.eng.putMeter m .initial) s.tab s.scanGrants m h

/-- Settles O43: the meter is lost, and each order is what its report makes of it. -/
theorem meterHoldExpires : Obligations.MeterHoldExpires := by
  intro s m hrun hst hdue hdown
  obtain ⟨e, hx, hm, ho⟩ := exec_meterHoldExpiry hrun hst hdue hdown
  refine ⟨_, hx, hm, fun c hc => (ho c).trans (by rw [hc]; rfl), fun c o hc => ?_⟩
  have hoc : (s.putEngine e).eng.order c = some (o.afterExpiry s.tab m) := (ho c).trans (by rw [hc]; rfl)
  intro n onIt
  rw [hoc]
  refine ⟨fun hm hp => ?_, fun r hm hp => ?_, fun h => ?_⟩
  · simp only [Order.afterExpiry, if_pos (show (o.path s.tab).meter = m from hm), hp]
    rfl
  · simp only [Order.afterExpiry, if_pos (show (o.path s.tab).meter = m from hm), hp, Order.stopCounting]
  · rcases h with hm | hp | hp
    · rw [Order.afterExpiry, if_neg (show ¬ (o.path s.tab).meter = m from hm)]
    · simp only [Order.afterExpiry, hp, ite_self]
    · simp only [Order.afterExpiry, hp, ite_self]

end Sys2Proof.Machine
end

section
/-! O26, O28, O35: what WRITE SENSOR MAP, READ MOVERS and SAVE CONFIGURATION answer, and the course of a save. -/

namespace Sys2Proof.Machine

open Sys2Proof

/-! ### WRITE SENSOR MAP (O26) -/

theorem mapInfo_eq (b : SensorBus) : b.mapInfo = List.ofFn (fun i : InputNo => (Bank.nth b.map i, ⟨Bank.nth b.inputs i,
    (if Bank.nth b.applied i = .unused then Bank.nth b.map i else Bank.nth b.applied i).isFlow⟩)) :=
  (List.ofFn_eq_map ..).symm

/-- Settles O26, by the cases of the request's owner. -/
theorem sensorMapWrite : Obligations.SensorMapWrite := by
  intro s f es h
  have hx : exec (.writeSensorMap f es) s = .next ((answerWriteSensorMap es s.asTaken).sent 0x26 f.seq) :=
    request_accepted h 0x26 _
  rw [hx]
  refine ⟨fun m hm hc => ?_, fun m hm ho => ?_, fun hm => ?_⟩
  · refine ⟨{ s.sbe with map := m }.mapInfo, ?_, mapInfo_eq _⟩
    have ho : s.asTaken.cfc.mode ≠ .operating := by simp [hc]
    rw [answerWriteSensorMap, State.asTaken_sbe, hm]
    dsimp only
    rw [if_neg ho]
    exact congrArg _ (gives_sent _ _ _ _ _ _ rfl)
  · have ho : s.asTaken.cfc.mode = .operating := by simp [ho]
    rw [answerWriteSensorMap, State.asTaken_sbe, hm]
    dsimp only
    rw [if_pos ho]
    exact congrArg _ (says_sent _ _ _ _ _ rfl)
  · rw [answerWriteSensorMap, State.asTaken_sbe, hm]
    exact congrArg _ (says_sent _ _ _ _ _ rfl)

/-! ### READ MOVERS (O28) -/

theorem shareOf_eq (g : ClaimSet) (r : Role) : g.shareOf r = ((g.roles.find? (fun y => y.1 = r)).map (·.2)).getD 0 := by
  unfold ClaimSet.shareOf
  split <;> simp [*]

theorem positionOf_eq (g : ClaimSet) (v : ValveNo) :
    g.positionOf v = ((g.valves.find? (fun y => y.1 = v)).map (·.2)).getD 0 := by
  unfold ClaimSet.positionOf
  split <;> simp [*]

/-- The present outputs in number order: O9 with the SPARE strap alone (R115). -/
theorem presentOutputs_eq (straps : Straps) : allOutputs.filter (outputPresent straps)
    = if straps.spare then [0, 1, 2, 3, 4, 5, 6, 7, 8] else [0, 1, 2, 3, 4, 5, 6, 7] := by
  have h : outputPresent straps = fun o => straps.spare || decide (o.val < 8) := rfl
  rw [h]
  cases straps.spare <;> decide

@[simp] theorem Engine.output_wakeUp (e : Engine) (o : OutputNo) : e.wakeUp.output o = e.output o := by
  simp [Engine.output]

@[simp] theorem Engine.valve_wakeUp (e : Engine) (v : ValveNo) : e.wakeUp.valve v = e.valve v := by
  simp [Engine.valve]

@[simp] theorem Engine.meter_wakeUp (e : Engine) (m : Meter) : e.wakeUp.meter m = e.meter m := by
  simp [Engine.meter]

theorem outputInfo_wakeUp (e : Engine) : e.wakeUp.outputInfo = e.outputInfo := by
  funext o
  simp [Engine.outputInfo]

/-- The input a map entry stands for, by the map as written, with what it shows (R22). -/
def SensorBus.inputOf (b : SensorBus) (y : MapEntry) : InputShown :=
  match allInputs.find? (fun i => Bank.nth b.map i = y) with
  | none => ⟨none, y.isFlow⟩
  | some i => b.shown i

/-- The input found has the entry sought, so it shows its value in that entry's form until
a scan has read it under another (R4). -/
theorem inputOf_eq (b : SensorBus) (y : MapEntry) : b.inputOf y
    = match (List.finRange 32).find? (fun i => Bank.nth b.map i = y) with
      | none => ⟨none, y.isFlow⟩
      | some i => ⟨Bank.nth b.inputs i, (if Bank.nth b.applied i = .unused then y else Bank.nth b.applied i).isFlow⟩ := by
  unfold SensorBus.inputOf allInputs
  cases h : (List.finRange 32).find? (fun i => decide (Bank.nth b.map i = y)) with
  | none => rfl
  | some i =>
    have hi : Bank.nth b.map i = y := by simpa using List.find?_some h
    simp only [SensorBus.shown, hi]

theorem meterInfo_eq (s : State) (m : Meter) : s.meterInfo m =
    ⟨(s.eng.meter m).state, if (s.eng.meter m).state = .invalid then none else (s.eng.meter m).rate,
      if (s.eng.meter m).state = .holding ∨ (s.eng.meter m).state = .handOver then (s.eng.meter m).held else none,
      if (s.eng.meter m).state = .holding then some (s.eng.meter m).holdCount else none,
      s.sbe.inputOf (.meterFlow m), s.sbe.inputOf (.meterSupply m), s.sbe.inputOf (.meterReturn m)⟩ := rfl

theorem meterInfo_asTaken (s : State) : s.asTaken.meterInfo = s.meterInfo := by
  funext m
  rw [meterInfo_eq, meterInfo_eq, State.asTaken_eng, Engine.meter_wakeUp, State.asTaken_sbe]

/-- Waking leaves what READ MOVERS shows. -/
theorem moversNow_asTaken (s : State) : s.asTaken.moversNow = s.moversNow := by
  simp [State.moversNow, outputInfo_wakeUp, meterInfo_asTaken]

theorem exec_readMovers {s : State} {f : Frame} (h : s.accepts f) :
    exec (.readMovers f) s = .next (s.asTaken.answered f 0xB0 .ok (.movers s.moversNow)) := by
  have hx : exec (.readMovers f) s = .next ((answerMovers s.asTaken).sent 0x30 f.seq) := request_accepted h 0x30 _
  rw [hx, answerMovers, moversNow_asTaken]
  exact congrArg _ (gives_sent _ _ _ _ _ _ rfl)

/-- A role's holders in grant order, each with its share (R113). -/
theorem roleHolders_eq (s : State) : s.moversNow.roleHolders
    = [.pumpBatt, .pumpDrive, .pumpCabin, .pumpAux, .fan, .heater, .compressor, .chiller].map (fun r =>
        (r, (s.eng.mar.grants.filter (fun g => g.roles.any (fun y => y.1 = r))).map (fun g =>
          ⟨g.channel, g.cls, ((g.roles.find? (fun y => y.1 = r)).map (·.2)).getD 0⟩))) := by
  simp only [← shareOf_eq]
  rfl

theorem valveHolders_eq (s : State) : s.moversNow.valveHolders
    = (List.finRange 6).map (fun v =>
        (v, (s.eng.mar.grants.filter (fun g => g.valves.any (fun y => y.1 = v))).map (fun g =>
          ⟨g.channel, g.cls, ((g.valves.find? (fun y => y.1 = v)).map (·.2)).getD 0⟩))) := by
  rw [show List.finRange 6 = allValves from rfl]
  simp only [← positionOf_eq]
  rfl

theorem outputNumbers_eq (s : State) : s.moversNow.outputs.map (·.number)
    = if s.tab.straps.spare then [0, 1, 2, 3, 4, 5, 6, 7, 8] else [0, 1, 2, 3, 4, 5, 6, 7] := by
  rw [← presentOutputs_eq]
  exact (List.map_map ..).trans (List.map_id _)

theorem valves_eq (s : State) : s.moversNow.valves = List.ofFn (fun v : ValveNo => (s.eng.valve v).info) :=
  (List.ofFn_eq_map ..).symm

/-- Which part an output has in a hand-over (R115). -/
theorem partOf_eq (x : OutputStage) (o : OutputNo) :
    (x.handOver = none → x.partOf o = none)
    ∧ ∀ h, x.handOver = some h →
      (h.incoming = o → x.partOf o = some (.incoming, h.timer))
      ∧ (∀ l, h.incoming ≠ o → h.outgoing = some (o, l) → x.partOf o = some (.outgoing, h.timer))
      ∧ (h.incoming ≠ o → (∀ l, h.outgoing ≠ some (o, l)) → x.partOf o = none) := by
  refine ⟨fun h => by simp [OutputStage.partOf, h], fun h hh => ⟨fun hi => ?_, fun l hi ho => ?_, fun hi ho => ?_⟩⟩
  · simp [OutputStage.partOf, hh, hi]
  · simp [OutputStage.partOf, hh, hi, ho]
  · have hn : h.outgoing.any (fun y => decide (y.1 = o)) = false := by
      rcases hg : h.outgoing with _ | ⟨p, l⟩
      · rfl
      · simp only [Option.any_some, decide_eq_false_iff_not]
        rintro rfl
        exact ho l hg
    simp [OutputStage.partOf, hh, hi, hn]

/-- Settles O28: the reply is what moversNow says, read field by field. -/
theorem moversReported : Obligations.MoversReported := by
  intro s f h
  refine ⟨s.moversNow, exec_readMovers h, rfl, rfl, rfl, rfl, rfl, rfl, roleHolders_eq s, valveHolders_eq s, outputNumbers_eq s,
    fun x hx => ?_, valves_eq s, ?_⟩
  · obtain ⟨o, -, rfl⟩ := List.mem_map.1 hx
    obtain ⟨hnone, hsome⟩ := partOf_eq s.eng.ost o
    refine ⟨rfl, rfl, rfl, rfl, rfl, rfl, rfl, ?_, rfl, hnone, hsome⟩
    dsimp only [Engine.outputInfo]
    cases outputKind o <;> rfl
  · exact List.map_congr_left fun k _ => (meterInfo_eq s k).trans
      (congr (congrArg₂ (MeterInfo.mk _ _ _ _) (inputOf_eq _ _) (inputOf_eq _ _)) (inputOf_eq _ _))

/-! ### SAVE CONFIGURATION and the course of a save (O35) -/

/-- The snapshot of a taken request is that of the state it found (R193). -/
theorem imageNow_asTaken (s : State) : s.asTaken.imageNow = s.imageNow := by
  simp [State.imageNow]

/-- What happens while a save is WRITING and the part runs. -/
theorem whileSaving_running {s : State} (hrun : s.run = .running) (hsave : s.cfc.save = .writing) (f : State → State) :
    s.whileRunning (fun s => s.whileSaving f) = f s := by
  simp [State.whileRunning, hrun, State.whileSaving, hsave]

theorem betweenScans_none {s : State} (h : s.sbe.scan = none) (f : State → State) : s.betweenScans f = f s := by
  simp [State.betweenScans, h]

/-- Settles O35: the request by the cases of its owner, the pieces by their rows. -/
theorem saveCourse : Obligations.SaveCourse := by
  refine ⟨fun s f h => ?_, fun s hrun hsave => ?_⟩
  · have hx : exec (.saveConfiguration f) s = .next ((answerSave s.asTaken).sent 0x55 f.seq) := request_accepted h 0x55 _
    rw [hx]
    refine ⟨fun hn => ⟨s.imageNow, ?_, rfl, rfl, rfl, rfl, rfl, rfl, rfl, rfl, rfl, rfl, fun k => ?_⟩, fun hw => ?_⟩
    · have ha : answerSave s.asTaken
          = (s.asTaken.putControl { s.asTaken.cfc with save := .writing, snapshot := some s.imageNow }).says .ok := by
        rw [answerSave, imageNow_asTaken]
        split
        · rename_i hw
          exact absurd hw hn
        all_goals rfl
      rw [ha]
      exact congrArg _ (says_sent _ _ _ _ _ rfl)
    · simp [State.imageNow, Bank.nth]
    · have ha : answerSave s.asTaken = s.asTaken.says .inUse := by
        simp [answerSave, hw]
      rw [ha]
      exact congrArg _ (says_sent _ _ _ _ _ rfl)
  · refine ⟨fun hscan => ?_, fun i hscan hi => ?_, ?_⟩
    · show execSavePiece s = _
      rw [execSavePiece, whileSaving_running hrun hsave, betweenScans_none hscan]
    · show execSaveComplete s = _
      rw [execSaveComplete, whileSaving_running hrun hsave, betweenScans_none hscan]
      simp [State.saveDone, hi]
    · show execSaveFailed s = _
      rw [execSaveFailed, whileSaving_running hrun hsave]
      rfl

end Sys2Proof.Machine
end

section
/-! O29: EXCHANGE ROLE at once, by a hand-over, or refused. -/

namespace Sys2Proof.Machine

open Sys2Proof

/-! ### The cases of R124 -/

@[simp] theorem Engine.mapped_wakeUp (e : Engine) (r : Role) : e.wakeUp.mapped r = e.mapped r := by
  simp [Engine.mapped]

/-- Waking changes nothing that an exchange is judged by. -/
theorem judgeExchange_asTaken (s : State) (r : Option Role) (force : Bool) :
    s.asTaken.judgeExchange r force = s.judgeExchange r force := by
  cases r with
  | none => rfl
  | some r =>
    simp only [State.judgeExchange, State.asTaken_tab, State.asTaken_eng, Engine.wakeUp_ost, Engine.wakeUp_mar,
      Engine.mapped_wakeUp, Engine.output_wakeUp]

theorem holdersOf_isEmpty_iff (l : List ClaimSet) (r : Role) :
    (holdersOf l r).isEmpty = true ↔ ∀ g ∈ l, g.names r = false := by
  simp [holdersOf, List.filter_eq_nil_iff]

section
variable {s : State} {f : Frame} (h : s.accepts f) {r : Option Role} {force : Bool}
include h

theorem exec_exchangeRole : exec (.exchangeRole f r force) s = .next ((answerExchange r force s.asTaken).sent 0x31 f.seq) :=
  request_accepted h 0x31 _

theorem exec_exchange_refused {c : ReplyCode} (hj : s.judgeExchange r force = .refused c) :
    exec (.exchangeRole f r force) s = .next (s.asTaken.answered f 0xB1 c .none) := by
  rw [exec_exchangeRole h, answerExchange, judgeExchange_asTaken, hj]
  exact congrArg _ (says_sent _ _ _ _ _ rfl)

end

/-! ### What an exchange does to map and outputs -/

/-- The map and the outputs after a role has moved onto the spare: the spare takes the role's
target from level 0, the former output has target 0 and keeps its level (R124, R125). -/
structure Moved (a b : Engine) (r : Role) (x : OutputNo) : Prop where
  roleMap : b.ost.roleMap = Bank.put a.ost.roleMap r.idx x
  spare : b.output x = { a.output x with target := (a.output (a.mapped r)).target, level := 0 }
  former : b.output (a.mapped r) = { a.output (a.mapped r) with target := 0 }
  others : ∀ o, o ≠ x → o ≠ a.mapped r → b.output o = a.output o

/-- The engine with the role on the spare and both outputs set, before the meter and the grant scan. -/
def Engine.onSpare (e : Engine) (r : Role) (x : OutputNo) : Engine :=
  let e1 := (e.remap r x).putOutput x { (e.remap r x).output x with target := (e.output (e.mapped r)).target, level := 0 }
  e1.putOutput (e.mapped r) { e1.output (e.mapped r) with target := 0 }

theorem exchangeAtOnce_eq (e : Engine) (t : Tables) (r : Role) (x : OutputNo) :
    e.exchangeAtOnce t r x = Engine.grantScan t (e.onSpare r x) := rfl

theorem moved_onSpare {e : Engine} {r : Role} {x : OutputNo} (hx : e.mapped r ≠ x) : Moved e (e.onSpare r x) r x where
  roleMap := rfl
  spare := by
    unfold Engine.onSpare
    dsimp only
    rw [Engine.output_putOutput_ne _ _ hx, Engine.output_putOutput_self]
    rfl
  former := by
    unfold Engine.onSpare
    dsimp only
    rw [Engine.output_putOutput_self, Engine.output_putOutput_ne _ _ hx.symm]
    rfl
  others o ho hm := by
    unfold Engine.onSpare
    dsimp only
    rw [Engine.output_putOutput_ne _ _ hm.symm, Engine.output_putOutput_ne _ _ ho.symm]
    rfl

theorem Moved.of_same {a b c : Engine} {r : Role} {x : OutputNo} (h : Moved a b r x) (ho : c.ost.outputs = b.ost.outputs)
    (hm : c.ost.roleMap = b.ost.roleMap) : Moved a c r x := by
  have same : ∀ o, c.output o = b.output o := fun o => by
    unfold Engine.output
    rw [ho]
  exact ⟨hm.trans h.roleMap, (same x).trans h.spare, (same _).trans h.former,
    fun o h1 h2 => (same o).trans (h.others o h1 h2)⟩

theorem Moved.of_wakeUp {a b : Engine} {r : Role} {x : OutputNo} (h : Moved a.wakeUp b r x) : Moved a b r x where
  roleMap := by simpa using h.roleMap
  spare := by simpa using h.spare
  former := by simpa using h.former
  others := by simpa using h.others

/-- A grant scan and what else Grants names leave an exchange as it is. -/
theorem Moved.grants {a b c : Engine} {r : Role} {x : OutputNo} (h : Moved a b r x) (g : Grants b c) : Moved a c r x :=
  h.of_same g.outputs g.roleMap

/-- An exchange at once. -/
theorem exchangeAtOnce_moved {e : Engine} {r : Role} {x : OutputNo} (hx : e.mapped r ≠ x) (t : Tables) :
    Moved e (e.exchangeAtOnce t r x) r x ∧ (e.exchangeAtOnce t r x).ost.handOver = e.ost.handOver
      ∧ (e.exchangeAtOnce t r x).meters = e.meters := by
  have g := grants_grantScan t (e.onSpare r x)
  rw [exchangeAtOnce_eq]
  exact ⟨(moved_onSpare hx).grants g, g.handOver, g.meters⟩

/-- The hand-over that an exchange of a held role begins (R125). -/
def Engine.handOverTo (e : Engine) (t : Tables) (r : Role) (x : OutputNo) : HandOver :=
  ⟨r, x, some (e.mapped r, (e.output (e.mapped r)).level), t.tuning.handOverTime * 10, t.tuning.handOverTime * 10⟩

/-- The engine with the hand-over begun, before the meter and the grant scan. -/
def Engine.handingOver (e : Engine) (t : Tables) (r : Role) (x : OutputNo) : Engine :=
  { e.onSpare r x with ost := { (e.onSpare r x).ost with handOver := some (e.handOverTo t r x) } }

theorem exchangeHeld_eq (e : Engine) (t : Tables) (r : Role) (x : OutputNo) : e.exchangeHeld t r x
    = Engine.grantScan t ((e.handingOver t r x).meterHandOver t (Engine.grantScan t) r) := rfl

/-- The start of a hand-over at its loop's meter: the meter's record, and nothing of the output stage (R20). -/
theorem meterHandOver_leaves (e : Engine) (t : Tables) (r : Role) :
    (e.meterHandOver t (Engine.grantScan t) r).ost.outputs = e.ost.outputs
    ∧ (e.meterHandOver t (Engine.grantScan t) r).ost.roleMap = e.ost.roleMap
    ∧ (e.meterHandOver t (Engine.grantScan t) r).ost.handOver = e.ost.handOver
    ∧ ∀ m, r.loopMeter = some m → (e.meterHandOver t (Engine.grantScan t) r).meter m = (e.meter m).beginHandOver := by
  unfold Engine.meterHandOver
  cases r.loopMeter with
  | none => exact ⟨rfl, rfl, rfl, nofun⟩
  | some m =>
    dsimp only
    have g := grants_meterReport (e.putMeter m (e.meter m).beginHandOver) t m
      (if (e.meter m).beginHandOver.state = .handOver then .held else .none)
    refine ⟨g.outputs, g.roleMap, g.handOver, fun k hk => ?_⟩
    cases hk
    exact (g.meter m).trans (Engine.meter_putMeter_self _ _ _)

/-- An exchange by a hand-over. -/
theorem exchangeHeld_moved {e : Engine} {r : Role} {x : OutputNo} (hx : e.mapped r ≠ x) (t : Tables) :
    Moved e (e.exchangeHeld t r x) r x ∧ (e.exchangeHeld t r x).ost.handOver = some (e.handOverTo t r x)
      ∧ ∀ m, r.loopMeter = some m → (e.exchangeHeld t r x).meter m = (e.meter m).beginHandOver := by
  have g := grants_grantScan t ((e.handingOver t r x).meterHandOver t (Engine.grantScan t) r)
  obtain ⟨ho, hm, hh, hk⟩ := meterHandOver_leaves (e.handingOver t r x) t r
  rw [exchangeHeld_eq]
  exact ⟨((moved_onSpare hx).of_same (c := (e.handingOver t r x).meterHandOver t (Engine.grantScan t) r) ho hm).grants g,
    g.handOver.trans hh, fun m hr => (g.meter m).trans (hk m hr)⟩

section
variable {s : State} {f : Frame} (h : s.accepts f) {r : Option Role} {force : Bool} {q : Role} {x : OutputNo}
  (hx : s.eng.mapped q ≠ x)
include h hx

/-- The request whose case is the exchange at once. -/
theorem exec_exchange_atOnce (hj : s.judgeExchange r force = .atOnce q x) :
    ∃ e, exec (.exchangeRole f r force) s = .next ((s.asTaken.putEngine e).answered f 0xB1 .ok (.roleMap e.ost.roleMap))
      ∧ Moved s.eng e q x ∧ e.ost.handOver = s.eng.ost.handOver ∧ e.meters = s.eng.meters := by
  rw [← Engine.mapped_wakeUp] at hx
  obtain ⟨hm, hh, hk⟩ := exchangeAtOnce_moved hx s.tab
  refine ⟨s.eng.wakeUp.exchangeAtOnce s.tab q x, ?_, hm.of_wakeUp,
    by rw [hh, Engine.wakeUp_ost], by rw [hk, Engine.wakeUp_meters]⟩
  rw [exec_exchangeRole h, answerExchange, judgeExchange_asTaken, hj]
  exact congrArg _ (gives_sent _ _ _ _ _ _ rfl)

/-- The request whose case is the hand-over. -/
theorem exec_exchange_held (hj : s.judgeExchange r force = .held q x) :
    ∃ e, exec (.exchangeRole f r force) s = .next ((s.asTaken.putEngine e).answered f 0xB1 .ok (.roleMap e.ost.roleMap))
      ∧ Moved s.eng e q x ∧ e.ost.handOver = some (s.eng.handOverTo s.tab q x)
      ∧ ∀ m, q.loopMeter = some m → e.meter m = (s.eng.meter m).beginHandOver := by
  rw [← Engine.mapped_wakeUp] at hx
  obtain ⟨hm, hh, hk⟩ := exchangeHeld_moved hx s.tab
  refine ⟨s.eng.wakeUp.exchangeHeld s.tab q x, ?_, hm.of_wakeUp, ?_, fun m hr => ?_⟩
  · rw [exec_exchangeRole h, answerExchange, judgeExchange_asTaken, hj]
    exact congrArg _ (gives_sent _ _ _ _ _ _ rfl)
  · rw [hh]
    simp only [Engine.handOverTo, Engine.mapped_wakeUp, Engine.output_wakeUp]
  · rw [hk m hr, Engine.meter_wakeUp]

end

/-- Settles O29: the refusals in the order of R124, then the exchange by what it does to map, outputs and meter. -/
theorem roleExchanged : Obligations.RoleExchanged := by
  intro s f r force h refused old unheld
  refine ⟨exec_exchange_refused h rfl, fun hp => ?_, fun hp hs => ?_, fun hp hs hh => ?_, fun hp hs hh ht => ?_,
    fun hp hs hh ht x hx => ?_⟩
  · exact exec_exchange_refused h (by simp [State.judgeExchange, hp])
  · exact exec_exchange_refused h (by simp [State.judgeExchange, hp, hs])
  · exact exec_exchange_refused h (by simp [State.judgeExchange, hp, hs, Option.isSome_iff_ne_none.2 hh])
  · exact exec_exchange_refused h (by simp [State.judgeExchange, hp, hs, hh,
      show (s.eng.output (s.eng.mapped r)).state = _ from ht])
  · have hspare : s.eng.mapped r ≠ x := mapped_ne_spare hx r
    have judged : s.judgeExchange (some r) force = if (s.eng.output x).state ≠ .inService then .refused .outputFaulted
        else if (holdersOf s.eng.mar.grants r).isEmpty then .atOnce r x else if force then .held r x else .refused .inUse := by
      simp [State.judgeExchange, hp, hs, hh, show (s.eng.output (s.eng.mapped r)).state ≠ _ from ht, hx]
    have held : ¬ unheld → ¬ (holdersOf s.eng.mar.grants r).isEmpty = true := fun hu he => hu ((holdersOf_isEmpty_iff _ _).1 he)
    intro map moved
    refine ⟨fun hf => ?_, fun hi hu hforce => ?_, fun hi hu => ?_, fun hi hu hforce => ?_⟩
    · exact exec_exchange_refused h (by rw [judged, if_pos hf])
    · exact exec_exchange_refused h (by rw [judged, if_neg (not_not.2 hi), if_neg (held hu), hforce]; rfl)
    · have hj : s.judgeExchange (some r) force = .atOnce r x := by
        rw [judged, if_neg (not_not.2 hi), if_pos ((holdersOf_isEmpty_iff _ _).2 hu)]
      obtain ⟨e, hex, hm, hho, hme⟩ := exec_exchange_atOnce h hspare hj
      rw [hm.roleMap] at hex
      exact ⟨_, hex, ⟨hm.roleMap, hm.spare, hm.former, hm.others⟩, hho.trans hh, hme⟩
    · have hj : s.judgeExchange (some r) force = .held r x := by
        rw [judged, if_neg (not_not.2 hi), if_neg (held hu), hforce]
        rfl
      obtain ⟨e, hex, hm, hho, hme⟩ := exec_exchange_held h hspare hj
      rw [hm.roleMap] at hex
      refine ⟨_, hex, ⟨hm.roleMap, hm.spare, hm.former, hm.others⟩, hho, fun m hr => ⟨fun hv => ?_, fun hv => ?_, fun hv => ?_⟩⟩
      all_goals
        refine (hme m hr).trans ?_
        simp only [MeterRec.beginHandOver, hv]

end Sys2Proof.Machine
end

section
/-! O3 and O60: the state right after a power-on reset, and the invariants in it. -/

namespace Sys2Proof.Machine

open Sys2Proof

/-! ### The banks of the reset engine -/

@[simp] theorem reset_eng : State.reset.eng = .initial .cool := rfl

@[simp] theorem channel_initial (x : Circuit) (c : ChannelNo) : (Engine.initial x).channel c = .initial := by
  simp [Engine.channel, Engine.initial]

@[simp] theorem order_initial (x : Circuit) (c : ChannelNo) : (Engine.initial x).order c = none := by
  simp [Engine.order, Channel.initial]

@[simp] theorem output_initial (x : Circuit) (o : OutputNo) : (Engine.initial x).output o = .initial := by
  simp [Engine.output, Engine.initial, OutputStage.initial]

@[simp] theorem valve_initial (x : Circuit) (v : ValveNo) : (Engine.initial x).valve v = .initial := by
  simp [Engine.valve, Engine.initial, OutputStage.initial]

@[simp] theorem meter_initial (x : Circuit) (m : Meter) : (Engine.initial x).meter m = .initial := by
  simp [Engine.meter, Engine.initial]

@[simp] theorem zone_initial (x : Circuit) (z : Zone) : (Engine.initial x).zone z = .initial := by
  simp [Engine.zone, Engine.initial]

/-- Settles O3: the plain fields by the definition of the reset state, the banks by what each of their places holds. -/
theorem resetMachine : Obligations.ResetMachine := by
  refine ⟨rfl, rfl, rfl, fun c => by simp, fun c => by simp [Channel.initial], rfl, fun o => ?_, fun v => ?_, rfl, fun m => ?_,
    fun z => ?_, fun z => ?_, rfl, rfl, rfl, rfl, rfl, rfl, fun i => ?_, rfl, rfl, rfl⟩
  · rw [reset_eng, output_initial]
    exact ⟨rfl, rfl, rfl, rfl, rfl, rfl⟩
  · rw [reset_eng, valve_initial]
    exact ⟨rfl, rfl, rfl, rfl, rfl, rfl⟩
  · exact meter_initial _ m
  · exact zone_initial _ z
  · exact Bank.nth_replicate _ _
  · exact Bank.nth_replicate _ _

/-! ### The invariants (O60) -/

/-- At reset every channel is IDLE, the regulator DISABLED and every output at 0. -/
theorem rests_reset : State.reset.eng.restsOutsideReady := fun _ =>
  ⟨fun c => order_initial _ c, .inl rfl, fun o => by rw [reset_eng, output_initial]; rfl⟩

/-- At reset the port is FREE with no reply in it. -/
theorem repliesOk_initial : LinkPort.initial.repliesOk := by
  simp [LinkPort.repliesOk, LinkPort.initial]

/-- Settles O60, one invariant after the other. -/
theorem invariantsAtReset : Obligations.InvariantsAtReset :=
  ⟨rests_reset, (consistent_iff _).1 consistent_initial, List.nodup_nil, repliesOk_initial, ⟨fun _ => rfl, Nat.zero_le _⟩,
    by simp [Control.saveOk, State.reset, State.fresh, Control.initial]⟩

end Sys2Proof.Machine
end

section
/-! O55, O22, O23, O27: segment bodies, and the requests that write, read and check the slots. -/

namespace Sys2Proof.Machine

open Sys2Proof

/-! ### What a taken request answers -/

/-- A request that goes to its owner is answered with what the owner gives. -/
theorem request_gives {s t : State} {f : Frame} {kind k : Byte} {owner : State → Answer} {c : ReplyCode} {b : ReplyBody}
    (h : s.accepts f) (hk : replyKind kind = k) (ho : owner s.asTaken = t.gives c b) :
    s.request kind f owner = .next (t.answered f k c b) := by
  rw [request_accepted h, ho, gives_sent t c b kind k f hk]

/-- A request that goes to its owner is answered with the code that the owner says. -/
theorem request_says {s t : State} {f : Frame} {kind k : Byte} {owner : State → Answer} {c : ReplyCode}
    (h : s.accepts f) (hk : replyKind kind = k) (ho : owner s.asTaken = t.says c) :
    s.request kind f owner = .next (t.answered f k c .none) := request_gives h hk ho

/-! ### Numbers, flags and labels in bytes -/

theorem num16_be16 {n : Nat} (h : n < 65536) :
    num16 (BitVec.ofNat 8 (n / 256)) (BitVec.ofNat 8 n) = n := by
  simp only [num16, BitVec.toNat_ofNat]
  omega

theorem be16_num16 (h l : Byte) : be16 (num16 h l) = [h, l] := by
  have hl := l.isLt
  have hh : (num16 h l) / 256 = h.toNat := by simp only [num16]; omega
  have hb : BitVec.ofNat 8 (num16 h l) = l := by
    apply BitVec.eq_of_toNat_eq
    simp only [num16, BitVec.toNat_ofNat]
    omega
  rw [be16, hh, hb, BitVec.ofNat_toNat, BitVec.setWidth_eq]

theorem flagsByte_lt (f : SegFlags) : (flagsByte f).toNat < 32 := by
  obtain ⟨a, b, c, d, e⟩ := f
  revert a b c d e
  decide

theorem flagsOf_flagsByte (f : SegFlags) : flagsOf (flagsByte f) = f := by
  obtain ⟨a, b, c, d, e⟩ := f
  revert a b c d e
  decide

theorem flagsByte_flagsOf : ∀ b : Byte, b.toNat < 32 → flagsByte (flagsOf b) = b := by
  have small : ∀ n : Fin 32, flagsByte (flagsOf (BitVec.ofNat 8 n.val)) = BitVec.ofNat 8 n.val := by decide
  intro b hb
  simpa using small ⟨b.toNat, hb⟩

theorem labelOf_ofNat (l : Fin 256) : labelOf (BitVec.ofNat 8 l.val) = l := by
  apply Fin.ext
  simp [labelOf]

theorem ofFin_labelOf (b : Byte) : BitVec.ofFin (labelOf b) = b := rfl

/-- A slot's or an entry's number is read back from its byte. -/
theorem finOf_ofNat {n : Nat} (h : n ≤ 256) (i : Fin n) : finOf n (BitVec.ofNat 8 i.val).toNat = some i := by
  have hi := i.isLt
  have hv : (BitVec.ofNat 8 i.val).toNat = i.val := by simp only [BitVec.toNat_ofNat]; omega
  rw [hv, finOf_val]

/-- A number that names something is that thing's number. -/
theorem finOf_eq_some {n x : Nat} {i : Fin n} (h : finOf n x = some i) : i.val = x := by
  unfold finOf at h
  split at h <;> cases h
  rfl

/-! ### Segment bodies (O55) -/

theorem segmentBytes_length (x : Segment) : (segmentBytes x).length = 10 := by
  cases x <;> simp [segmentBytes, be16]

/-- A segment in range is read back from its body (R28, R188). -/
theorem segmentOf_segmentBytes {x : Segment} (h : segmentOk x = true) : segmentOf (segmentBytes x) = some x := by
  cases x with
  | empty => rfl
  | jump j =>
    have hj := finOf_ofNat (by decide) j
    simpa [segmentBytes, segmentOf] using hj
  | transfer t =>
    have hok : transferOk t = true := h
    obtain ⟨⟨⟨_, hq⟩, _, hr⟩, hl⟩ :
        ((1 ≤ t.quantity ∧ t.quantity ≤ 65000) ∧ 1 ≤ t.rate ∧ t.rate ≤ 1500) ∧ t.timeLimit ≤ 7200 := by
      simpa [transferOk] using hok
    have hp := finOf_ofNat (by decide) t.path
    have hf := flagsByte_lt t.flags
    simp only [segmentBytes, be16, List.cons_append, List.nil_append, segmentOf, hp, num16_be16 (n := t.quantity) (by omega),
      num16_be16 (n := t.rate) (by omega), num16_be16 (n := t.timeLimit) (by omega), labelOf_ofNat, flagsOf_flagsByte]
    rw [if_neg (by decide), if_neg (by decide), if_pos trivial, if_pos ⟨hok, hf⟩]

/-- A body that is read holds a segment in range and is the body of that segment (R28, R188). -/
theorem segmentOf_eq_some {bs : List Byte} {x : Segment} (h : segmentOf bs = some x) :
    segmentOk x = true ∧ segmentBytes x = bs := by
  unfold segmentOf at h
  split at h
  case h_2 => cases h
  rename_i kind b1 b2 b3 b4 b5 b6 b7 b8 b9
  split at h
  · rename_i hk
    obtain ⟨hz, hx⟩ := Option.ite_none_right_eq_some.1 h
    cases hx
    refine ⟨rfl, ?_⟩
    simp only [List.all_cons, List.all_nil, Bool.and_true, Bool.and_eq_true, decide_eq_true_eq] at hz
    simp [segmentBytes, hk, hz]
  · split at h
    · rename_i hk
      obtain ⟨hz, hx⟩ := Option.ite_none_right_eq_some.1 h
      obtain ⟨j, hj, rfl⟩ := Option.map_eq_some_iff.1 hx
      refine ⟨rfl, ?_⟩
      simp only [List.all_cons, List.all_nil, Bool.and_true, Bool.and_eq_true, decide_eq_true_eq] at hz
      simp [segmentBytes, hk, hz, finOf_eq_some hj]
    · split at h
      · rename_i hk
        split at h
        · cases h
        · rename_i p hp
          obtain ⟨⟨hok, hf⟩, hx⟩ := Option.ite_none_right_eq_some.1 h
          cases hx
          refine ⟨hok, ?_⟩
          simp [segmentBytes, hk, be16_num16, finOf_eq_some hp, ofFin_labelOf, flagsByte_flagsOf b9 hf]
      · cases h

/-- Settles O55, by the kinds of a segment and by the kind byte of a body. -/
theorem segmentRoundTrip : Obligations.SegmentRoundTrip :=
  ⟨fun x h => ⟨segmentBytes_length x, segmentOf_segmentBytes h⟩, fun _ _ h => segmentOf_eq_some h⟩

/-! ### Runs of bodies -/

/-- A list of readings succeeds exactly when each of them does. -/
theorem mapM_eq_some_iff {α β : Type} (f : α → Option β) (l : List α) (r : List β) :
    l.mapM f = some r ↔ l.map f = r.map some := by
  induction l generalizing r with
  | nil => cases r <;> simp
  | cons x l ih =>
    cases r with
    | nil => simp [Option.bind_eq_some_iff]
    | cons y r => simp [Option.bind_eq_some_iff, ih]

theorem cutBodies_length (n : Nat) (bs : List Byte) : (cutBodies n bs).length = n := by
  induction n generalizing bs with
  | zero => rfl
  | succ n ih => rw [cutBodies, List.length_cons, ih]

/-- Bodies of 10 bytes put one after another are cut apart again. -/
theorem cutBodies_flatten {l : List (List Byte)} (h : ∀ x ∈ l, x.length = 10) : cutBodies l.length l.flatten = l := by
  induction l with
  | nil => rfl
  | cons x l ih =>
    have hx : x.length = 10 := h x List.mem_cons_self
    rw [List.length_cons, List.flatten_cons, cutBodies, ← hx, List.take_left, List.drop_left,
      ih (fun y hy => h y (List.mem_cons_of_mem _ hy))]

theorem flatten_bodies_length (segs : List Segment) : (segs.map segmentBytes).flatten.length = 10 * segs.length := by
  induction segs with
  | nil => rfl
  | cons x segs ih =>
    rw [List.map_cons, List.flatten_cons, List.length_append, segmentBytes_length, ih, List.length_cons]
    omega

/-- The bodies of segments in range are read back as the segments. -/
theorem mapM_segmentOf {segs : List Segment} (h : ∀ x ∈ segs, segmentOk x = true) :
    (segs.map segmentBytes).mapM segmentOf = some segs := by
  rw [mapM_eq_some_iff, List.map_map]
  exact List.map_congr_left fun x hx => segmentOf_segmentBytes (h x hx)

/-! ### WRITE SEGMENTS (O22) -/

/-- The body of R188 for segments in range and inside one area is judged good (R30). -/
theorem segmentWriteOf_body {first : Nat} {segs : List Segment} (h1 : 1 ≤ segs.length) (h8 : segs.length ≤ 8)
    (hok : ∀ x ∈ segs, segmentOk x = true) (ha : first + segs.length ≤ 80 ∨ (80 ≤ first ∧ first + segs.length ≤ 96)) :
    segmentWriteOf (BitVec.ofNat 8 first :: BitVec.ofNat 8 segs.length :: (segs.map segmentBytes).flatten)
      = some (first, segs) := by
  have hf : (BitVec.ofNat 8 first).toNat = first := by simp only [BitVec.toNat_ofNat]; omega
  have hn : (BitVec.ofNat 8 segs.length).toNat = segs.length := by simp only [BitVec.toNat_ofNat]; omega
  have hcut : cutBodies segs.length (segs.map segmentBytes).flatten = segs.map segmentBytes := by
    have hten : ∀ b ∈ segs.map segmentBytes, b.length = 10 := by simp [segmentBytes_length]
    simpa using cutBodies_flatten hten
  unfold segmentWriteOf
  dsimp only
  rw [hf, hn, if_pos ⟨h1, h8, flatten_bodies_length segs, by omega, by omega⟩, hcut, mapM_segmentOf hok]
  rfl

/-- A body that is judged good holds slots on one side of the border of the areas (R30). -/
theorem segmentWriteOf_area {body : List Byte} {first : Nat} {segs : List Segment}
    (h : segmentWriteOf body = some (first, segs)) : first + segs.length ≤ 80 ∨ 80 ≤ first := by
  unfold segmentWriteOf at h
  split at h
  case h_2 => cases h
  obtain ⟨⟨_, _, _, _, harea⟩, hx⟩ := Option.ite_none_right_eq_some.1 h
  obtain ⟨l, hl, he⟩ := Option.map_eq_some_iff.1 hx
  cases he
  have hlen := congrArg List.length ((mapM_eq_some_iff ..).1 hl)
  rw [List.length_map, List.length_map, cutBodies_length] at hlen
  omega

/-- A slot that is written holds its segment, every other one what it held (R30). -/
theorem nth_writeSlots (slots : Bank Segment 96) (first : Nat) (segs : List Segment) (i : SlotNo) :
    Bank.nth (writeSlots slots first segs) i
      = if h : first ≤ i.val ∧ i.val < first + segs.length then segs[i.val - first]'(by omega) else Bank.nth slots i := by
  have hn : Bank.nth (writeSlots slots first segs) i
      = if first ≤ i.val then (segs[i.val - first]?).getD (Bank.nth slots i) else Bank.nth slots i := by
    simp [writeSlots, Bank.nth]
  rw [hn]
  by_cases hf : first ≤ i.val
  · by_cases hl : i.val < first + segs.length
    · rw [if_pos hf, dif_pos ⟨hf, hl⟩, List.getElem?_eq_getElem (by omega), Option.getD_some]
    · rw [if_pos hf, dif_neg (fun h => hl h.2), List.getElem?_eq_none (by omega), Option.getD_none]
  · rw [if_neg hf, dif_neg (fun h => hf h.1)]

section
variable {s : State} {body : List Byte} {first : Nat} {segs : List Segment}
  (h : segmentWriteOf body = some (first, segs))
include h

/-- A body judged good may be refused by what protects the reserve area (R43). -/
theorem answerWriteSegments_refused {c : ReplyCode} (hr : s.segmentRefusal first = some c) :
    answerWriteSegments body s = s.says c := by
  simp only [answerWriteSegments, h, hr]

/-- A body judged good that nothing refuses is written (R30). -/
theorem answerWriteSegments_taken (hr : s.segmentRefusal first = none) : answerWriteSegments body s
    = (s.putTables { s.tab with slots := writeSlots s.tab.slots first segs }).says .ok := by
  simp only [answerWriteSegments, h, hr]

end

/-- Settles O22: the body is judged good, and then the refusal of the reserve area decides. -/
theorem writeSegments : Obligations.WriteSegments := by
  intro s f first segs h h1 h8 hok ha body allowed
  have hbody : segmentWriteOf body = some (first, segs) := segmentWriteOf_body h1 h8 hok ha
  refine ⟨fun hw => ⟨writeSlots s.tab.slots first segs, request_says h rfl (answerWriteSegments_taken hbody ?taken),
      nth_writeSlots _ _ _⟩, fun hr hl => request_says h rfl (answerWriteSegments_refused hbody ?locked),
    fun hr hl hm => request_says h rfl (answerWriteSegments_refused hbody ?operating)⟩
  case taken =>
    rcases hw with hw | ⟨hl, hm⟩
    · simp [State.segmentRefusal, hw]
    · simp [State.segmentRefusal, hl, hm]
  case locked => simp [State.segmentRefusal, Nat.not_lt.2 hr, hl]
  case operating => simp [State.segmentRefusal, Nat.not_lt.2 hr, hl, hm]

/-! ### READ SEGMENTS (O23) -/

/-- A run of things taken out of a bank, one after another. -/
theorem take_drop_bank {α : Type} {n : Nat} (b : Bank α n) (first count : Nat) (h : first + count ≤ n) :
    (b.toList.drop first).take count = List.ofFn (fun i : Fin count => Bank.nth b ⟨first + i.val, by omega⟩) := by
  apply List.ext_getElem
  · simp
    omega
  · intro i h1 h2
    simp [Bank.nth]

/-- Settles O23: the range decides. -/
theorem readSegments : Obligations.ReadSegments := by
  intro s f first count h
  refine ⟨fun hn h1 h8 => request_gives h rfl ?_, fun hbad => request_says h rfl ?_⟩
  · rw [answerReadSegments, if_pos ⟨h1, h8, hn⟩, State.asTaken_tab, take_drop_bank _ _ _ hn]
  · rw [answerReadSegments, if_neg (by omega)]

/-! ### CHECKSUM (O27) -/

theorem answerChecksum_good {a : Area} {first last : Nat} (h1 : first ≤ last) (h2 : last < areaSize a) (s : State) :
    answerChecksum a first last s
      = s.gives .ok (.checksum (s.areaCrc a first last) (last + 1 - first) s.cfc.mode s.cfc.locks) := by
  rw [answerChecksum, if_pos ⟨h1, h2⟩, ← Nat.sub_add_comm h1]

/-- The CRC over slots is that of their bodies (R47, R188). -/
theorem areaCrc_segments (s : State) {first last : Nat} (h : first ≤ last) : s.areaCrc .segments first last
    = crc16 ((((s.tab.slots.toList.drop first).take (last + 1 - first)).map segmentBytes).flatten) := by
  rw [State.areaCrc, State.areaBytes, ← Nat.sub_add_comm h, ← List.map_drop, ← List.map_take]

/-- Settles O27: the range decides. -/
theorem checksum : Obligations.Checksum := by
  intro s f first last h
  refine ⟨fun h1 h2 => request_gives h rfl ?_, fun a h1 h2 => ⟨_, request_gives h rfl (answerChecksum_good h1 h2 _)⟩,
    fun a hbad => request_says h rfl ?_⟩
  · rw [answerChecksum_good (a := .segments) h1 h2, areaCrc_segments _ h1]
    rfl
  · rw [answerChecksum, if_neg (by omega)]

end Sys2Proof.Machine
end

section
/-! O52: what RESERVE-LOCK and LIMIT-LOCK protect stands, and neither lock is cleared. -/

namespace Sys2Proof.Machine

open Sys2Proof

/-! ### The protection as a relation of two states -/

/-- The invariant of O52 from a state to a later one: under its lock the reserve area, or the limits, stand, and the lock
stands with them (R39, R41, R43). -/
structure LocksKept (s t : State) : Prop where
  reserve : s.cfc.locks.reserve = true → t.cfc.locks.reserve = true
    ∧ ∀ i : SlotNo, 80 ≤ i.val → Bank.nth t.tab.slots i = Bank.nth s.tab.slots i
  limit : s.cfc.locks.limit = true → t.cfc.locks.limit = true ∧ ∀ z, (t.tab.zone z).limits = (s.tab.zone z).limits

/-- Nothing that a lock may protect is touched: neither the locks nor the slots nor the zone table. -/
structure SparesProtected (s t : State) : Prop where
  locks : t.cfc.locks = s.cfc.locks
  slots : t.tab.slots = s.tab.slots
  zones : t.tab.zones = s.tab.zones

theorem SparesProtected.refl (s : State) : SparesProtected s s := ⟨rfl, rfl, rfl⟩

theorem SparesProtected.trans {a b c : State} (h : SparesProtected a b) (k : SparesProtected b c) : SparesProtected a c :=
  ⟨k.locks.trans h.locks, k.slots.trans h.slots, k.zones.trans h.zones⟩

/-- A state with the same tables and control as one that spares spares too. -/
theorem SparesProtected.of_eq {s t : State} (hc : t.cfc = s.cfc) (ht : t.tab = s.tab) : SparesProtected s t :=
  ⟨by rw [hc], by rw [ht], by rw [ht]⟩

theorem SparesProtected.locksKept {s t : State} (h : SparesProtected s t) : LocksKept s t where
  reserve hl := ⟨by rw [h.locks, hl], fun i _ => by rw [h.slots]⟩
  limit hl := ⟨by rw [h.locks, hl], fun z => by rw [Tables.zone, h.zones]; rfl⟩

theorem LocksKept.refl (s : State) : LocksKept s s := (SparesProtected.refl s).locksKept

theorem LocksKept.trans {a b c : State} (h : LocksKept a b) (k : LocksKept b c) : LocksKept a c where
  reserve hl := by
    obtain ⟨hb, hab⟩ := h.reserve hl
    obtain ⟨hc, hbc⟩ := k.reserve hb
    exact ⟨hc, fun i hi => (hbc i hi).trans (hab i hi)⟩
  limit hl := by
    obtain ⟨hb, hab⟩ := h.limit hl
    obtain ⟨hc, hbc⟩ := k.limit hb
    exact ⟨hc, fun z => (hbc z).trans (hab z)⟩

/-! ### The owners that write what a lock may protect -/

/-- A write that is taken under RESERVE-LOCK lies below the reserve area (R43). -/
theorem writeSlots_below {s : State} {first : Nat} {segs : List Segment} (hn : s.segmentRefusal first = none)
    (ha : first + segs.length ≤ 80 ∨ 80 ≤ first) (hl : s.cfc.locks.reserve = true) : first + segs.length ≤ 80 := by
  by_cases hf : first < 80
  · omega
  · simp [State.segmentRefusal, hf, hl] at hn

theorem Tables.zone_slots (t : Tables) (x : Bank Segment 96) (z : Zone) : ({ t with slots := x } : Tables).zone z = t.zone z :=
  rfl

theorem locksKept_writeSegments (body : List Byte) (s : State) : LocksKept s (answerWriteSegments body s).state := by
  unfold answerWriteSegments
  split
  · exact .refl s
  · rename_i first segs hb
    split
    · exact .refl s
    · rename_i hn
      show LocksKept s (s.putTables { s.tab with slots := writeSlots s.tab.slots first segs })
      refine ⟨fun hl => ⟨hl, fun i hi => ?_⟩, fun hl => ⟨hl, fun z => by rw [State.putTables_tab, Tables.zone_slots]⟩⟩
      have hbelow := writeSlots_below hn (segmentWriteOf_area hb) hl
      exact (nth_writeSlots _ _ _ _).trans (dif_neg (by omega))

/-- A zone write that is taken under LIMIT-LOCK carries no limit group (R41). -/
theorem limits_none_of_taken {c : Control} {x : ZoneChange} (hn : c.zoneRefusal x = none) (hl : c.locks.limit = true) :
    x.limits = none := by
  by_contra hx
  simp [Control.zoneRefusal, hl, Option.isSome_iff_ne_none.2 hx] at hn

/-- A zone write that carries no limit group leaves every limit alone. -/
theorem limits_changeZone (t : Tables) (z y : Zone) {x : ZoneChange} (hx : x.limits = none) :
    ((t.changeZone z x).zone y).limits = (t.zone y).limits := by
  rw [Tables.changeZone, Tables.zone, Bank.nth_put]
  split
  · rename_i hzy
    rw [ZoneChange.apply, hx, Tables.zone, hzy]
    rfl
  · rfl

@[simp] theorem State.takeZoneWrite_tab (s : State) (z : Zone) (x : ZoneChange) :
    (s.takeZoneWrite z x).tab = s.tab.changeZone z x := by
  unfold State.takeZoneWrite
  dsimp only
  split <;> rfl

@[simp] theorem State.takeZoneWrite_cfc (s : State) (z : Zone) (x : ZoneChange) : (s.takeZoneWrite z x).cfc = s.cfc := by
  unfold State.takeZoneWrite
  dsimp only
  split <;> rfl

theorem locksKept_writeZone (n : Nat) (w : ZoneWrite) (s : State) : LocksKept s (answerWriteZone n w s).state := by
  unfold answerWriteZone
  split
  · exact .refl s
  · split
    · exact .refl s
    · split
      · exact .refl s
      · rename_i z _ _ x _ _ hn
        show LocksKept s (s.takeZoneWrite z x)
        refine ⟨fun hl => ?_, fun hl => ?_⟩
        · rw [State.takeZoneWrite_cfc, State.takeZoneWrite_tab]
          exact ⟨hl, fun _ _ => rfl⟩
        · rw [State.takeZoneWrite_cfc, State.takeZoneWrite_tab]
          exact ⟨hl, fun y => limits_changeZone _ _ _ (limits_none_of_taken hn hl)⟩

/-- SET LOCK sets locks and clears none (R40). -/
theorem locksKept_setLock (l : Locks) (s : State) : LocksKept s (answerSetLock l s).state := by
  unfold answerSetLock
  split
  · exact .refl s
  · split
    · exact .refl s
    · refine ⟨fun hl => ⟨?_, fun _ _ => rfl⟩, fun hl => ⟨?_, fun _ => rfl⟩⟩ <;> simp [State.gives, Locks.set, hl]

/-- RELEASE PATH LOCK clears the third lock alone (R42). -/
theorem locksKept_releasePathLock (s : State) : LocksKept s (answerReleasePathLock s).state := by
  unfold answerReleasePathLock
  split
  · exact .refl s
  · split
    · exact .refl s
    · exact ⟨fun hl => ⟨hl, fun _ _ => rfl⟩, fun hl => ⟨hl, fun _ => rfl⟩⟩

/-! ### The owners that touch nothing of it -/

/-- The owners of the requests on orders and reports. -/
theorem spares_orderOwner (s : State) :
    (∀ c l k t w, SparesProtected s (answerStart c l k t w s).state) ∧ (∀ c, SparesProtected s (answerHalt c s).state)
    ∧ (∀ c, SparesProtected s (answerQuery c s).state) ∧ SparesProtected s (answerFetch s).state := by
  refine ⟨fun c l k t w => ?start, fun c => ?halt, fun c => ?query, ?fetch⟩
  case start =>
    unfold answerStart
    repeat' split
    all_goals exact .of_eq rfl rfl
  case halt =>
    unfold answerHalt
    repeat' split
    all_goals exact .of_eq rfl rfl
  case query =>
    unfold answerQuery
    repeat' split
    all_goals exact .of_eq rfl rfl
  case fetch =>
    unfold answerFetch
    repeat' split
    all_goals exact .of_eq rfl rfl

/-- The owners of the requests on tables that write neither slots nor limits. -/
theorem spares_tableOwner (s : State) :
    (∀ a b, SparesProtected s (answerReadSegments a b s).state) ∧ (∀ n w, SparesProtected s (answerWritePath n w s).state)
    ∧ (∀ n, SparesProtected s (answerReadPath n s).state) ∧ (∀ n, SparesProtected s (answerReadZone n s).state)
    ∧ (∀ es, SparesProtected s (answerWriteSensorMap es s).state)
    ∧ ∀ a x y, SparesProtected s (answerChecksum a x y s).state := by
  refine ⟨fun a b => ?readSegments, fun n w => ?writePath, fun n => ?readPath, fun n => ?readZone, fun es => ?map,
    fun a x y => ?checksum⟩
  case readSegments =>
    unfold answerReadSegments
    split
    all_goals exact .refl s
  case writePath =>
    unfold answerWritePath
    repeat' split
    all_goals exact ⟨rfl, rfl, rfl⟩
  case readPath =>
    unfold answerReadPath
    split
    all_goals exact .refl s
  case readZone =>
    unfold answerReadZone
    split
    all_goals exact .refl s
  case map =>
    unfold answerWriteSensorMap
    repeat' split
    all_goals exact .of_eq rfl rfl
  case checksum =>
    unfold answerChecksum
    split
    all_goals exact .refl s

/-- The owners of the requests on movers and comfort. -/
theorem spares_plantOwner (s : State) :
    (∀ r b, SparesProtected s (answerExchange r b s).state) ∧ (∀ i, SparesProtected s (answerTest i s).state)
    ∧ (∀ h, SparesProtected s (answerTarget h s).state) ∧ (∀ g, SparesProtected s (answerComfortOn g s).state)
    ∧ SparesProtected s (answerComfortOff s).state ∧ ∀ b, SparesProtected s (answerPanelLock b s).state := by
  refine ⟨fun r b => ?exchange, fun i => ?test, fun h => ?target, fun g => ?comfortOn, .of_eq rfl rfl, fun b => ?panelLock⟩
  case exchange =>
    unfold answerExchange
    split
    all_goals exact .of_eq rfl rfl
  case test =>
    unfold answerTest answerOutputTest answerValveTest
    repeat' split
    all_goals exact .of_eq rfl rfl
  case target =>
    unfold answerTarget
    dsimp only
    split
    all_goals exact .of_eq rfl rfl
  case comfortOn =>
    unfold answerComfortOn
    repeat' split
    all_goals exact .of_eq rfl rfl
  case panelLock =>
    unfold answerPanelLock
    split
    all_goals exact .of_eq rfl rfl

/-- The owners of the requests of configuration control that set no lock. -/
theorem spares_controlOwner (s : State) :
    (∀ t b, SparesProtected s (answerTuning t b s).state) ∧ (∀ m, SparesProtected s (answerMode m s).state)
    ∧ (∀ w, SparesProtected s (answerWindow w s).state) ∧ SparesProtected s (answerSave s).state
    ∧ SparesProtected s (answerReleaseLockout s).state ∧ SparesProtected s (answerPark s).state := by
  refine ⟨fun t b => ?tuning, fun m => ?mode, fun w => ?window, ?save, ⟨rfl, rfl, rfl⟩, ?park⟩
  case tuning =>
    unfold answerTuning
    repeat' split
    all_goals exact ⟨rfl, rfl, rfl⟩
  case mode =>
    unfold answerMode
    repeat' split
    all_goals exact ⟨rfl, rfl, rfl⟩
  case window =>
    unfold answerWindow
    repeat' split
    all_goals exact ⟨rfl, rfl, rfl⟩
  case save =>
    unfold answerSave
    split
    all_goals exact ⟨rfl, rfl, rfl⟩
  case park =>
    unfold answerPark
    split
    all_goals exact ⟨rfl, rfl, rfl⟩

/-- Every request's owner keeps what the locks protect. -/
theorem locksKept_owner {c : Instr} {kind : Byte} {f : Frame} (h : requestOf c = some (kind, f)) :
    ∃ owner : State → Answer, (∀ s, exec c s = s.request kind f owner) ∧ ∀ s, LocksKept s (owner s).state := by
  cases c <;> simp only [requestOf, Option.some.injEq, Prod.mk.injEq, reduceCtorEq] at h
  all_goals
    obtain ⟨rfl, rfl⟩ := h
    refine ⟨_, fun _ => rfl, fun s => ?_⟩
    obtain ⟨hstart, hhalt, hquery, hfetch⟩ := spares_orderOwner s
    obtain ⟨hreadSegments, hwritePath, hreadPath, hreadZone, hmap, hchecksum⟩ := spares_tableOwner s
    obtain ⟨hexchange, htest, htarget, hcomfortOn, hcomfortOff, hpanelLock⟩ := spares_plantOwner s
    obtain ⟨htuning, hmode, hwindow, hsave, hreleaseLockout, hpark⟩ := spares_controlOwner s
  case identify => exact .refl s
  case readStatus => exact .refl s
  case startOrder => exact (hstart ..).locksKept
  case haltOrder => exact (hhalt _).locksKept
  case queryChannel => exact (hquery _).locksKept
  case fetchReport => exact hfetch.locksKept
  case writeSegments => exact locksKept_writeSegments _ s
  case readSegments => exact (hreadSegments ..).locksKept
  case writePath => exact (hwritePath ..).locksKept
  case readPath => exact (hreadPath _).locksKept
  case writeZone => exact locksKept_writeZone _ _ s
  case readZone => exact (hreadZone _).locksKept
  case writeSensorMap => exact (hmap _).locksKept
  case checksum => exact (hchecksum ..).locksKept
  case readMovers => exact .refl s
  case exchangeRole => exact (hexchange ..).locksKept
  case testOutput => exact (htest _).locksKept
  case setCabinTarget => exact (htarget _).locksKept
  case comfortOn => exact (hcomfortOn _).locksKept
  case comfortOff => exact hcomfortOff.locksKept
  case panelLock => exact (hpanelLock _).locksKept
  case setTuning => exact (htuning ..).locksKept
  case setMode => exact (hmode _).locksKept
  case setLock => exact locksKept_setLock _ s
  case releasePathLock => exact locksKept_releasePathLock s
  case setPathWindow => exact (hwindow _).locksKept
  case saveConfiguration => exact hsave.locksKept
  case releaseLockout => exact hreleaseLockout.locksKept
  case park => exact hpark.locksKept
  case reset => exact .refl s

/-! ### The commands -/

theorem spares_errorReply (s : State) (k q : Byte) (c : ReplyCode) : SparesProtected s (s.errorReply k q c) := by
  unfold State.errorReply
  split
  · exact .refl s
  · exact .of_eq rfl rfl

/-- What a completed frame may lead to after all that came before it in its arrival. -/
theorem locksKept_frameArrives {s : State} (kind seq : Byte) (body : List Byte) {f : State → State}
    (hf : ∀ s, LocksKept s (f s)) : LocksKept s (s.frameArrives kind seq body f) :=
  frameArrives_keeps (P := LocksKept s) (fun _ _ h => ⟨h.reserve, h.limit⟩)
    (fun _ h => h.trans (spares_errorReply ..).locksKept) (fun _ h => ⟨h.reserve, h.limit⟩)
    (fun _ h => h.trans (hf _)) (.refl s)

theorem locksKept_frameTaken (s : State) (kind seq : Byte) {judge : State → Answer}
    (hj : ∀ s, LocksKept s (judge s).state) : LocksKept s (s.frameTaken kind seq judge) := by
  have hc : SparesProtected s s.frameComplete := .of_eq rfl rfl
  have ht : SparesProtected s s.frameComplete.takeSlot := ⟨rfl, rfl, rfl⟩
  unfold State.frameTaken
  dsimp only
  split
  · exact (hc.trans (spares_errorReply ..)).locksKept
  · split
    · exact hc.locksKept
    · obtain ⟨hr, hl⟩ := ht.locksKept.trans (hj _)
      exact ⟨hr, hl⟩

theorem locksKept_judgeRequest (s : State) (kind : Byte) (fits : Bool) {owner : State → Answer}
    (ho : ∀ s, LocksKept s (owner s).state) : LocksKept s (s.judgeRequest kind fits owner).state := by
  unfold State.judgeRequest
  split
  · exact .refl s
  · split
    · exact ho s
    · exact .refl s

/-- A request keeps what its owner keeps. -/
theorem locksKept_request {s t : State} {kind : Byte} {f : Frame} {owner : State → Answer}
    (ho : ∀ s, LocksKept s (owner s).state) (ht : s.request kind f owner = .next t) : LocksKept s t :=
  running_keeps (LocksKept s) ht (.refl s) fun _ => locksKept_frameArrives _ _ _ fun _ =>
    locksKept_frameTaken _ _ _ fun _ => locksKept_judgeRequest _ _ _ ho

/-- The frames that reach no owner: of an unknown kind, or with no slot free. -/
theorem locksKept_unheardRow {s t : State} :
    (∀ kind f, execUnknownRequest kind f s = .next t → LocksKept s t)
    ∧ (∀ kind f, execBusy kind f s = .next t → LocksKept s t) := by
  refine ⟨fun kind f ht => ?unknown, fun kind f ht => ?busy⟩
  case unknown =>
    unfold execUnknownRequest at ht
    split at ht
    · cases ht; exact .refl _
    · exact running_keeps (LocksKept s) ht (.refl s) fun _ => locksKept_frameArrives _ _ _ fun _ =>
        locksKept_frameTaken _ _ _ fun s => .refl s
  case busy =>
    unfold execBusy at ht
    split at ht
    · cases ht; exact .refl _
    · refine running_keeps (LocksKept s) ht (.refl s) fun _ => locksKept_frameArrives _ _ _ fun s => ?_
      have hc : SparesProtected s s.frameComplete := .of_eq rfl rfl
      exact (hc.trans (spares_errorReply ..)).locksKept

theorem spares_receiveOther (s : State) (bytes : List RxByte) : SparesProtected s (s.receive otherFrame bytes) :=
  receive_keeps (P := SparesProtected s) (on := otherFrame) (fun _ _ h => ⟨h.locks, h.slots, h.zones⟩)
    (fun _ h => h.trans (spares_errorReply ..)) (fun _ _ _ _ h => ⟨h.locks, h.slots, h.zones⟩) (.refl s) bytes

/-- The panel link may change the panel port and the cabin target alone. -/
theorem spares_panelChar (s : State) (b : Byte) : SparesProtected s (s.panelChar b) := by
  have take : ∀ (s : State) cs, SparesProtected s (s.takeLine cs) := fun s cs => by
    unfold State.takeLine
    split <;> exact .of_eq rfl rfl
  have reject : ∀ s : State, SparesProtected s s.rejectLine := fun s => by
    unfold State.rejectLine
    split <;> exact .of_eq rfl rfl
  have empty : SparesProtected s s.emptyLine := .of_eq rfl rfl
  unfold State.panelChar
  split
  · split
    · exact empty.trans (reject _)
    · split
      · exact .refl s
      · exact empty.trans (take _ _)
  · repeat' split
    all_goals exact .of_eq rfl rfl

theorem spares_panelChars (s : State) (bs : List Byte) : SparesProtected s (s.panelChars bs) := by
  have fold : SparesProtected s (bs.foldl State.panelChar s) := by
    induction bs generalizing s with
    | nil => exact .refl s
    | cons b bs ih => exact (spares_panelChar s b).trans (ih _)
  unfold State.panelChars
  split
  · exact .refl s
  all_goals exact fold

/-- A soft reset sets the tuning set and control's own marks, and no lock (R198). -/
theorem spares_softReset (s : State) : SparesProtected s s.softReset := by
  have abandoned : SparesProtected s s.abandonSave := by
    unfold State.abandonSave
    split
    · exact ⟨rfl, rfl, rfl⟩
    all_goals exact .refl s
  exact ⟨abandoned.locks, abandoned.slots, abandoned.zones⟩

theorem spares_replyLeft (s : State) : SparesProtected s s.replyLeft := by
  unfold State.replyLeft
  split
  · exact .refl s
  · dsimp only
    split
    · exact (spares_softReset s).trans (.of_eq rfl rfl)
    · exact .of_eq rfl rfl

/-- A scan's own rows change neither tables nor locks (R4 to R12). -/
theorem spares_scanRow {s t : State} :
    (execScanStart s = .next t → SparesProtected s t) ∧ (execParkedScanStart s = .next t → SparesProtected s t)
    ∧ (execWakingScanStart s = .next t → SparesProtected s t)
    ∧ (∀ i r, execSensorRead i r s = .next t → SparesProtected s t)
    ∧ (∀ i, execInputLost i s = .next t → SparesProtected s t)
    ∧ (∀ f ord, execScanEnd f ord s = .next t → SparesProtected s t) := by
  refine ⟨?start, ?parked, ?waking, fun i r => ?read, fun i => ?lost, fun f ord => ?ends⟩ <;>
    refine fun ht => running_keeps (SparesProtected s) ht (.refl s) fun _ => ?_
  case start => split <;> exact .of_eq rfl rfl
  case parked => split <;> exact .of_eq rfl rfl
  case waking => split <;> exact .of_eq rfl rfl
  case read =>
    split
    · exact .refl s
    · split <;> exact .of_eq rfl rfl
  case lost =>
    split
    · exact .refl s
    · split <;> exact .of_eq rfl rfl
  case ends =>
    split
    · rename_i kind _
      have hover := scanOver_endScan s kind f ord
      exact ⟨by rw [hover.cfc], by rw [hover.tab], by rw [hover.tab]⟩
    all_goals exact .refl s

/-- An event of the plant acts on the engine alone. -/
theorem spares_plantEvent {s t : State} {c : Instr} (hc : plantEvent c = true) (h : exec c s = .next t) :
    SparesProtected s t := by
  cases c <;> first
    | exact absurd hc Bool.false_ne_true
    | exact running_keeps (SparesProtected s) h (.refl s) fun _ => .of_eq rfl rfl

theorem spares_whileSaving {s : State} {f : State → State} (hf : SparesProtected s (f s)) :
    SparesProtected s (s.whileSaving f) := by
  unfold State.whileSaving
  split
  · exact hf
  all_goals exact .refl s

theorem spares_betweenScans {s : State} {f : State → State} (hf : SparesProtected s (f s)) :
    SparesProtected s (s.betweenScans f) := by
  unfold State.betweenScans
  split
  · exact hf
  · exact .refl s

/-- Every command but those that restart the part or install an image keeps what the locks protect. -/
theorem locksKept_exec {s t : State} {c : Instr} (hc : restartsOrInstalls c = false) (ht : exec c s = .next t) :
    LocksKept s t := by
  rcases hq : requestOf c with _ | ⟨kind, f⟩
  case some =>
    obtain ⟨owner, he, ho⟩ := locksKept_owner hq
    exact locksKept_request ho (he s ▸ ht)
  by_cases hp : plantEvent c = true
  · exact (spares_plantEvent hp ht).locksKept
  obtain ⟨hunknown, hbusy⟩ := locksKept_unheardRow (s := s) (t := t)
  obtain ⟨hstart, hparked, hwaking, hread, hlost, hend⟩ := spares_scanRow (s := s) (t := t)
  have running {f : State → State} (ht : Host.Outcome.next (φ := Fault) (ρ := Refusal) (s.whileRunning f) = .next t)
      (hf : SparesProtected s (f s)) : LocksKept s t :=
    (running_keeps (SparesProtected s) ht (.refl s) fun _ => hf).locksKept
  cases c
  case unknownRequest kind f => exact hunknown kind f ht
  case busy kind f => exact hbusy kind f ht
  case scanStart => exact (hstart ht).locksKept
  case parkedScanStart => exact (hparked ht).locksKept
  case wakingScanStart => exact (hwaking ht).locksKept
  case sensorRead i r => exact (hread i r ht).locksKept
  case inputLost i => exact (hlost i ht).locksKept
  case scanEnd f ord => exact (hend f ord ht).locksKept
  case frameError bytes after => exact running ht ((spares_receiveOther ..).trans (spares_receiveOther ..))
  case frameTimeout bytes =>
    refine running ht (.trans (b := (s.receive otherFrame bytes.before).putRx .hunting) ?_ (spares_receiveOther ..))
    exact (spares_receiveOther ..).trans (.of_eq rfl rfl)
  case replySent => exact running ht (spares_replyLeft s)
  case parkTimerExpiry =>
    refine running ht ?_
    unfold State.parkIfDue
    split
    · exact ⟨rfl, rfl, rfl⟩
    · exact .refl s
  case outputEnableEnd =>
    refine running ht ?_
    split
    · exact ⟨rfl, rfl, rfl⟩
    · exact .refl s
  case savePiece => exact running ht (spares_whileSaving (spares_betweenScans (.of_eq rfl rfl)))
  case saveComplete => exact running ht (spares_whileSaving (spares_betweenScans ⟨rfl, rfl, rfl⟩))
  case saveFailed => exact running ht (spares_whileSaving ⟨rfl, rfl, rfl⟩)
  case panelTargetLine rest => exact running ht (spares_panelChars ..)
  case panelQueryLine => exact running ht (spares_panelChars ..)
  case panelBadLine line => exact running ht (spares_panelChars ..)
  case panelLineTimeout before after =>
    refine running ht (.trans (b := (s.panelChars before).emptyLine) ?_ (spares_panelChars ..))
    exact (spares_panelChars ..).trans (.of_eq rfl rfl)
  case panelReplySent => exact running ht (.of_eq rfl rfl)
  case powerOnReset | resetPinRelease | resetPinAssert | powerLoss | imageLoadComplete => cases hc
  -- What is left is an event of the plant or a request.
  all_goals first | exact absurd rfl hp | exact absurd hq (Option.some_ne_none _)

/-- Settles O52: every command keeps the relation, so it holds from the state it meets to the one it leaves. -/
theorem locksProtect : Obligations.LocksProtect := by
  intro s t c hc ht
  obtain ⟨hreserve, hlimit⟩ := locksKept_exec hc ht
  exact ⟨hreserve, hlimit⟩

end Sys2Proof.Machine
end

section
/-! O54: locating a segment, its program errors, and the copy taken of the slot that is found. -/

namespace Sys2Proof.Machine

open Sys2Proof

/-! ### The order areas -/

theorem inArea_iff (reserve : Bool) (j : SlotNo) :
    inArea reserve j = true ↔ if reserve then 80 ≤ j.val else j.val < 80 := by
  cases reserve <;> simp [inArea, inReserveArea]

/-! ### Locating -/

section
variable {slots : Bank Segment 96} {t : SlotNo} (reserve : Bool)

theorem locateAt_transfer {x : Transfer} (h : Bank.nth slots t = .transfer x) : locateAt slots reserve t = .ok (t, x) := by
  rw [locateAt, h]

theorem locateAt_empty (h : Bank.nth slots t = .empty) :
    locateAt slots reserve t = .error (.program .emptySlot (some t)) := by
  rw [locateAt, h]

theorem locateAt_jump_outside {j : SlotNo} (h : Bank.nth slots t = .jump j) (ha : ¬ inArea reserve j = true) :
    locateAt slots reserve t = .error (.program .jumpOutOfRange (some t)) := by
  rw [locateAt, h]
  exact if_neg ha

/-- A jump inside its area is followed once (R33). -/
theorem locateAt_jump_inside {reserve : Bool} {j : SlotNo} (h : Bank.nth slots t = .jump j) (ha : inArea reserve j = true) :
    locateAt slots reserve t = match Bank.nth slots j with
      | .jump _ => .error (.program .jumpToJump (some t))
      | .empty => .error (.program .emptySlot (some j))
      | .transfer x => .ok (j, x) := by
  rw [locateAt, h]
  exact if_pos ha

end

theorem locateAfter_last (slots : Bank Segment 96) (reserve : Bool) {s : SlotNo} (h : s.val = 95) :
    locateAfter slots reserve s = .error (.program .pastEnd (some s)) := dif_neg (by omega)

theorem locateAfter_border (slots : Bank Segment 96) {s : SlotNo} (h : s.val = 79) :
    locateAfter slots false s = .error (.program .areaCrossed (some s)) := by
  rw [locateAfter, dif_pos (by omega), if_pos ⟨h, rfl⟩]

theorem locateAfter_next (slots : Bank Segment 96) {reserve : Bool} {s : SlotNo} (h : s.val + 1 < 96)
    (hb : ¬ (s.val = 79 ∧ reserve = false)) : locateAfter slots reserve s = locateAt slots reserve ⟨s.val + 1, h⟩ := by
  rw [locateAfter, dif_pos h, if_neg hb]

/-! ### The copy taken -/

/-- A first segment that is fetched is the copy of the slot that is located (R37, R51). -/
theorem fetchFirst_ok {e : Engine} {t : Tables} {owner : Owner} {cls : Fin 4} {first : SlotNo} {x : Copy}
    (h : e.fetchFirst t owner cls first = .ok x) :
    ∃ u y, locateAt t.slots owner.inReserve first = .ok (u, y) ∧ x = copyOf u y := by
  unfold Engine.fetchFirst at h
  split at h
  · cases h
  · rename_i u y hl
    dsimp only at h
    split at h
    · cases h
    · split at h <;> cases h
      exact ⟨u, y, hl, rfl⟩

/-- A successor that is fetched is the copy of the slot that is located after the current one (R37, R66). -/
theorem successorOf_ok {t : Tables} {o : Order} {s : SlotNo} {x : Copy} (hs : o.copy.slot = some s)
    (h : successorOf t o = .ok x) :
    ∃ u y, locateAfter t.slots o.owner.inReserve s = .ok (u, y) ∧ x = copyOf u y := by
  unfold successorOf at h
  simp only [hs] at h
  split at h
  · cases h
  · rename_i u y hl
    split at h <;> cases h
    exact ⟨u, y, hl, rfl⟩

/-- Settles O54, by the cases of R33. -/
theorem locatingErrors : Obligations.LocatingErrors := by
  refine ⟨fun slots reserve => ⟨fun s h => locateAfter_last slots reserve h, fun s h hr => hr ▸ locateAfter_border slots h,
    fun s h hb => locateAfter_next slots h hb, fun t => ⟨fun x h => locateAt_transfer reserve h,
      fun h => locateAt_empty reserve h, fun j h => ⟨fun ha => ?outside, fun k ha hj => ?jump, fun ha hj => ?empty,
        fun x ha hj => ?transfer⟩⟩⟩, fun e t owner cls first x h => fetchFirst_ok h,
    fun t o s x hs h => successorOf_ok hs h⟩
  case outside => exact locateAt_jump_outside reserve h (fun k => ha ((inArea_iff ..).1 k))
  case jump => rw [locateAt_jump_inside h ((inArea_iff ..).2 ha), hj]; rfl
  case empty => rw [locateAt_jump_inside h ((inArea_iff ..).2 ha), hj]; rfl
  case transfer => rw [locateAt_jump_inside h ((inArea_iff ..).2 ha), hj]

end Sys2Proof.Machine
end

section
/-! O34, O24: the locks and the path window, and the path table. -/

namespace Sys2Proof.Machine

open Sys2Proof

/-! ### SET LOCK, RELEASE PATH LOCK, SET PATH WINDOW (O34) -/

@[simp] theorem Engine.order_wakeUp (e : Engine) (c : ChannelNo) : e.wakeUp.order c = e.order c := by
  simp [Engine.order, Engine.channel]

@[simp] theorem Engine.allIdle_wakeUp (e : Engine) : e.wakeUp.allIdle = e.allIdle := by
  simp [Engine.allIdle]

/-- A window whose first entry is not after its last is read as it stands. -/
theorem windowOf_good {a b : PathNo} (h : a ≤ b) : windowOf (some (a.val, b.val)) = some (some (a, b)) := by
  simp [windowOf, finOf_val, h]

theorem windowOf_bad {a b : Nat} (h : 23 < a ∨ 23 < b ∨ b < a) : windowOf (some (a, b)) = none := by
  unfold windowOf
  dsimp only
  split
  · rename_i x y hx hy
    have ha := finOf_eq_some hx
    have hb := finOf_eq_some hy
    exact if_neg fun hle => by
      have : x.val ≤ y.val := hle
      omega
  · rfl

/-- A window that names no entry beyond the table, in order, is read. -/
theorem windowOf_inRange {w : Option (Nat × Nat)} (h : ∀ a b, w = some (a, b) → a ≤ b ∧ b ≤ 23) :
    ∃ x, windowOf w = some x := by
  rcases w with _ | ⟨a, b⟩
  · exact ⟨none, rfl⟩
  · obtain ⟨hab, hb⟩ := h a b rfl
    exact ⟨_, windowOf_good (a := ⟨a, by omega⟩) (b := ⟨b, by omega⟩) hab⟩

theorem answerWindow_taken {s : State} {w : Option (Nat × Nat)} {x : Option (PathNo × PathNo)} (hw : windowOf w = some x)
    (hm : s.cfc.mode = .commissioning) :
    answerWindow w s = (s.putControl { s.cfc with window := x }).gives .ok (.window x s.cfc.locks) := by
  simp [answerWindow, hw, hm]

theorem answerWindow_operating {s : State} {w : Option (Nat × Nat)} {x : Option (PathNo × PathNo)} (hw : windowOf w = some x)
    (hm : s.cfc.mode = .operating) : answerWindow w s = s.says .notPermitted := by
  simp [answerWindow, hw, hm]

theorem answerWindow_bad {w : Option (Nat × Nat)} (hw : windowOf w = none) (s : State) :
    answerWindow w s = s.says .badArgument := by
  simp [answerWindow, hw]

/-- Settles O34, by the cases of the three owners. -/
theorem locksAndWindow : Obligations.LocksAndWindow := by
  intro s f h idle
  have hidle : s.eng.allIdle = true ↔ idle := Engine.allIdle_iff _
  refine ⟨fun l hl => ?set,
    request_says h rfl rfl, fun hm hi => request_gives h rfl ?release, fun hm hi => request_says h rfl ?releaseInUse,
    fun hm => request_says h rfl ?releaseOperating,
    fun a b hab hm => request_gives h rfl (answerWindow_taken (windowOf_good hab) hm),
    fun hm => request_gives h rfl (answerWindow_taken rfl hm), fun w hw hm => request_says h rfl ?windowOperating,
    fun a b hab => request_says h rfl (answerWindow_bad (windowOf_bad hab) _)⟩
  case set =>
    have hn : Locks.namesOne l = true := by simpa [Locks.namesOne, or_assoc] using hl
    refine ⟨fun hm => request_gives h rfl ?_, fun hm => request_says h rfl ?_⟩
    · simp [answerSetLock, hn, hm, Locks.set]
    · simp [answerSetLock, hn, hm]
  case release => simp [answerReleasePathLock, hm, hidle.2 hi]
  case releaseInUse => simp [answerReleasePathLock, hm, Bool.eq_false_iff.2 (mt hidle.1 hi)]
  case releaseOperating => simp [answerReleasePathLock, hm]
  case windowOperating =>
    obtain ⟨x, hx⟩ := windowOf_inRange hw
    exact answerWindow_operating hx hm

/-! ### WRITE PATH and READ PATH (O24) -/

theorem inWindow_iff (w : Option (PathNo × PathNo)) (n : PathNo) :
    inWindow w n = true ↔ ∃ a b, w = some (a, b) ∧ a ≤ n ∧ n ≤ b := by
  rcases w with _ | ⟨a, b⟩ <;> simp [inWindow]

/-- A path write is let through by lock, mode and window in two cases (R39, R42, R44). -/
theorem pathRefusal_none_iff (c : Control) (n : PathNo) : c.pathRefusal n = none ↔
    (c.mode = .commissioning ∧ c.locks.path = false) ∨ (c.mode = .operating ∧ inWindow c.window n = true) := by
  unfold Control.pathRefusal
  cases c.mode <;> simp

@[simp] theorem Engine.pathInUse_wakeUp (e : Engine) (n : PathNo) : e.wakeUp.pathInUse n = e.pathInUse n := by
  simp [Engine.pathInUse]

section
variable {s : State} {n : PathNo} {w : PathWrite} {p : Option PathEntry} (h : pathWriteOf w = some p)
include h

/-- A write that is good in form is refused by lock, mode and window (R39, R42, R44). -/
theorem answerWritePath_refused {c : ReplyCode} (hr : s.cfc.pathRefusal n = some c) : answerWritePath n.val w s = s.says c := by
  simp [answerWritePath, finOf_val, h, hr]

/-- A write that lock, mode and window let through is judged by use (R45). -/
theorem answerWritePath_open (hr : s.cfc.pathRefusal n = none) : answerWritePath n.val w s
    = if s.eng.pathInUse n then s.says .inUse else
        (s.putTables { s.tab with paths := Bank.put s.tab.paths n p }).gives .ok
          (.path ((s.putTables { s.tab with paths := Bank.put s.tab.paths n p }).pathInfo n)) := by
  simp [answerWritePath, finOf_val, h, hr]

end

/-- Settles O24: lock, mode and window judge a write first, use after them. -/
theorem pathTable : Obligations.PathTable := by
  intro s f n w p h hp inWin open_ inUse
  have hopen : s.asTaken.cfc.pathRefusal n = none ↔ open_ := by
    rw [pathRefusal_none_iff, inWindow_iff]
    rfl
  have huse : s.asTaken.eng.pathInUse n = true ↔ inUse := by
    rw [State.asTaken_eng, Engine.pathInUse_wakeUp]
    exact pathInUse_iff _ _
  refine ⟨fun ho hu => ?taken, fun hm hl => request_says h rfl (answerWritePath_refused hp ?locked),
    fun hm hn => request_says h rfl (answerWritePath_refused hp ?closed), fun ho hu => request_says h rfl ?inUse, ?read⟩
  case taken =>
    refine ⟨(s.asTaken.putTables { s.tab with paths := Bank.put s.tab.paths n p }).pathInfo n, request_gives h rfl ?_, ?_, ?_⟩
    · rw [answerWritePath_open hp (hopen.2 ho)]
      exact if_neg (mt huse.1 hu)
    · simp [State.pathInfo]
    · simp [State.pathInfo]
  case locked => simp [Control.pathRefusal, hm, hl]
  case closed =>
    have hout : inWindow s.cfc.window n = false := Bool.eq_false_iff.2 (mt (inWindow_iff ..).1 hn)
    simp [Control.pathRefusal, hm, hout]
  case inUse =>
    rw [answerWritePath_open hp (hopen.2 ho)]
    exact if_pos (huse.2 hu)
  case read =>
    refine ⟨s.asTaken.pathInfo n, request_gives h rfl ?_, rfl, rfl, huse, ?_⟩
    · rw [answerReadPath, finOf_val]
    · rw [State.pathInfo, Option.isNone_iff_eq_none]
      exact hopen

end Sys2Proof.Machine
end

section
/-! O25: WRITE ZONE with a pending start judged afresh, and READ ZONE. -/

namespace Sys2Proof.Machine

open Sys2Proof

/-! ### What waking and the pending flag leave alone -/

@[simp] theorem Engine.zone_wakeUp (e : Engine) (z : Zone) : e.wakeUp.zone z = e.zone z := by
  simp [Engine.zone]

theorem Engine.zoneStates_setPending (e : Engine) (z : Zone) (b : Bool) : (e.setPending z b).zoneStates = e.zoneStates := by
  funext y
  by_cases hy : z = y
  · subst hy
    simp [Engine.zoneStates, Engine.setPending]
  · simp [Engine.zoneStates, Engine.setPending, Engine.zone_putZone_ne _ _ hy]

theorem Engine.zoneStates_wakeUp (e : Engine) : e.wakeUp.zoneStates = e.zoneStates := by
  funext y
  simp [Engine.zoneStates]

/-- A first fetch reads nothing of the engine but the states of the zones (R51, R52). -/
theorem fetchFirst_congr {a b : Engine} (h : a.zoneStates = b.zoneStates) (t : Tables) (owner : Owner) (cls : Fin 4)
    (first : SlotNo) : a.fetchFirst t owner cls first = b.fetchFirst t owner cls first := by
  simp [Engine.fetchFirst, Engine.setup, h]

theorem ownReserve_iff (e : Engine) (z : Zone) :
    e.ownReserve z = true ↔ ∃ c o, e.order c = some o ∧ o.owner = .reserve z := by
  simp [Engine.ownReserve, Option.any_eq_true, mem_allChannels]

/-! ### A reserve start that falls due (R141) -/

section
variable {e : Engine} {t : Tables} {k : Engine → Engine} {z : Zone} {r : Reserve}

/-- A start that fails at its first segment: the regulator has its notice, and the outcome is ENDED (R141, R161). -/
theorem startReserve_error {g : Ending} (h : e.fetchFirst t (.reserve z) 0 r.slot = .error g) :
    e.startReserve t k z r = (e.noticeReserve r.channel).setOutcome z (.ended g.cause 0) := by
  rw [Engine.startReserve, h]

/-- A start that is made: the regulator has its notice, and the order is taken (R54, R141, R161). -/
theorem startReserve_ok {y : Copy} (h : e.fetchFirst t (.reserve z) 0 r.slot = .ok y) : e.startReserve t k z r
    = ((e.noticeReserve r.channel).setOutcome z .started).takeOrder t k r.channel
        (newOrder (.reserve z) 0 0 (some r.slot) y 0) := by
  rw [Engine.startReserve, h]

theorem reserveDue_own (h : e.ownReserve z = true) : e.reserveDue t k z r = e.setOutcome z .started := if_pos h

variable (hown : e.ownReserve z = false)
include hown

/-- Outside READY a start waits. -/
theorem reserveDue_outside (hp : e.part ≠ .ready) : e.reserveDue t k z r = e.becomePending z := by
  rw [Engine.reserveDue, hown]
  cases hpart : e.part with
  | ready => exact absurd hpart hp
  | starting => rfl
  | parked => rfl
  | waking => rfl

theorem reserveDue_idle (hp : e.part = .ready) (ho : e.order r.channel = none) :
    e.reserveDue t k z r = e.startReserve t k z r := by
  simp [Engine.reserveDue, hown, hp, ho]

/-- The reserve order of another zone is waited for. -/
theorem reserveDue_reserve (hp : e.part = .ready) {o : Order} (ho : e.order r.channel = some o) {y : Zone}
    (hy : o.owner = .reserve y) : e.reserveDue t k z r = e.becomePending z := by
  simp [Engine.reserveDue, hown, hp, ho, hy]

/-- A host order in SETTING or RUNNING is taken over: it runs down PREEMPTED, and the start waits for its end (R75, R141). -/
theorem reserveDue_host (hp : e.part = .ready) {o : Order} (ho : e.order r.channel = some o) (hy : o.owner = .host)
    (hph : o.phase = .setting ∨ o.phase = .running) (hn : (t.entry o.copy.path).runDown ≠ 0) : e.reserveDue t k z r
      = (e.putOrder r.channel (some (o.endingFor t (.plain .preempted) false))).becomePending z := by
  have hend : e.imposeEnd t k r.channel (.plain .preempted)
      = e.putOrder r.channel (some (o.endingFor t (.plain .preempted) false)) := by
    have henter : e.enterEnd t k r.channel o (.plain .preempted) false
        = e.putOrder r.channel (some (o.endingFor t (.plain .preempted) false)) := by
      simp [Engine.enterEnd, Engine.endIfImmediate, Engine.regulatorTakes, hy, hn]
    rcases hph with hph | hph <;> simp [Engine.imposeEnd, ho, hph, henter]
  simp [Engine.reserveDue, hown, hp, ho, hy, hend, Engine.startOrPend]

end

/-! ### A pending start judged afresh (R134) -/

section
variable {e : Engine} {t : Tables} (k : Engine → Engine) {z : Zone}

theorem rejudgePending_unpended (h : (e.zone z).pending = false) : e.rejudgePending t k z = e := by
  simp [Engine.rejudgePending, h]

/-- With no reserve written the start is dropped, with its report. -/
theorem rejudgePending_dropped (h : (e.zone z).pending = true) (hr : (t.zone z).reserve = none) :
    e.rejudgePending t k z = ((e.setPending z false).setOutcome z .notStarted).handZone z := by
  simp [Engine.rejudgePending, h, hr, Engine.dropPending]

/-- With a reserve written the start falls due anew, with a report when the outcome changes. -/
theorem rejudgePending_due (h : (e.zone z).pending = true) {r : Reserve} (hr : (t.zone z).reserve = some r) {e' : Engine}
    (hd : (e.setPending z false).reserveDue t k z r = e') : e.rejudgePending t k z
      = if (e'.zone z).trip.outcome = (e.zone z).trip.outcome then e' else e'.handZone z := by
  simp [Engine.rejudgePending, h, hr, hd]

end

/-! ### WRITE ZONE -/

theorem zone_changeZone_self (t : Tables) (z : Zone) (x : ZoneChange) :
    (t.changeZone z x).zone z = x.apply (t.zone z) := Bank.nth_put_self _ _ _

/-- A reserve group that is written stands in the entry (R41). -/
theorem reserve_changeZone (t : Tables) (z : Zone) {x : ZoneChange} {g : Option Reserve} (h : x.reserve = some g) :
    ((t.changeZone z x).zone z).reserve = g := by
  rw [zone_changeZone_self, ZoneChange.apply, h]
  rfl

theorem takeZoneWrite_none (s : State) (z : Zone) {x : ZoneChange} (h : x.reserve = none) :
    s.takeZoneWrite z x = s.putTables (s.tab.changeZone z x) := by
  simp [State.takeZoneWrite, h]

theorem takeZoneWrite_some (s : State) (z : Zone) {x : ZoneChange} {g : Option Reserve} (h : x.reserve = some g) :
    s.takeZoneWrite z x = (s.putTables (s.tab.changeZone z x)).putEngine
      (s.eng.rejudgePending (s.tab.changeZone z x) (Engine.grantScan (s.tab.changeZone z x)) z) := by
  simp [State.takeZoneWrite, h]

theorem takeZoneWrite_unpended {s : State} {z : Zone} (h : (s.eng.zone z).pending = false) (x : ZoneChange) :
    s.takeZoneWrite z x = s.putTables (s.tab.changeZone z x) := by
  cases hr : x.reserve with
  | none => exact takeZoneWrite_none s z hr
  | some g =>
    rw [takeZoneWrite_some s z hr, rejudgePending_unpended _ h]
    rfl

theorem zoneOf_idx (z : Zone) : zoneOf z.idx.val = some z := by cases z <;> rfl

section
variable {s : State} {z : Zone} {w : ZoneWrite} {x : ZoneChange} (h : zoneChangeOf z w = some x)
include h

/-- A write whose groups are judged good may be refused by lock and mode (R39, R41). -/
theorem answerWriteZone_refused {c : ReplyCode} (hr : s.cfc.zoneRefusal x = some c) :
    answerWriteZone z.idx.val w s = s.says c := by
  simp [answerWriteZone, zoneOf_idx, h, hr]

theorem answerWriteZone_taken (hr : s.cfc.zoneRefusal x = none) : answerWriteZone z.idx.val w s
    = (s.takeZoneWrite z x).gives .ok (.zoneTable ((s.takeZoneWrite z x).zoneTableInfo z)) := by
  simp [answerWriteZone, zoneOf_idx, h, hr]

end

/-- The engine in which a taken write judges a pending start afresh: the part woken, the zone no longer pending (R134). -/
def State.afresh (s : State) (z : Zone) : Engine := s.asTaken.eng.setPending z false

theorem afresh_order (s : State) (z : Zone) (c : ChannelNo) : (s.afresh z).order c = s.eng.order c := Engine.order_wakeUp _ _

theorem afresh_ready (s : State) (z : Zone) : (s.afresh z).part = .ready ↔ s.eng.part = .ready := by
  rw [State.afresh, Engine.setPending_part, State.asTaken_eng, Engine.wakeUp_part]
  cases s.eng.part <;> simp

theorem afresh_fetchFirst (s : State) (z : Zone) (t : Tables) (owner : Owner) (cls : Fin 4) (first : SlotNo) :
    (s.afresh z).fetchFirst t owner cls first = s.eng.fetchFirst t owner cls first :=
  fetchFirst_congr ((Engine.zoneStates_setPending ..).trans (Engine.zoneStates_wakeUp _)) _ _ _ _

theorem afresh_ownReserve (s : State) (z : Zone) :
    (s.afresh z).ownReserve z = true ↔ ∃ c o, s.eng.order c = some o ∧ o.owner = .reserve z := by
  simp only [ownReserve_iff, afresh_order]

/-- What a taken write makes of a pending start whose reserve it writes: the start that falls due afresh, with a zone
report when the outcome changes (R134, R148). -/
theorem takeZoneWrite_due {s : State} {z : Zone} {x : ZoneChange} {r : Reserve} (hr : x.reserve = some (some r))
    (hp : (s.eng.zone z).pending = true) {e' : Engine}
    (hd : (s.afresh z).reserveDue (s.tab.changeZone z x) (Engine.grantScan (s.tab.changeZone z x)) z r = e') :
    s.asTaken.takeZoneWrite z x = (s.asTaken.putTables (s.tab.changeZone z x)).putEngine
      (if (e'.zone z).trip.outcome = (s.eng.zone z).trip.outcome then e' else e'.handZone z) := by
  have hz : s.asTaken.eng.zone z = s.eng.zone z := Engine.zone_wakeUp _ _
  have hpend : (s.asTaken.eng.zone z).pending = true := by rw [hz, hp]
  rw [takeZoneWrite_some _ z hr, State.asTaken_tab, rejudgePending_due _ hpend (reserve_changeZone _ z hr) hd, hz]

/-! ### READ ZONE -/

theorem mem_allInputs (i : InputNo) : i ∈ allInputs := List.mem_finRange i

/-- An input of a zone shows its record in the form of the entry it was read under; one that was UNUSED then is no flow
either way (R4, R22). -/
theorem shown_of_zoneTemp {b : SensorBus} {i : InputNo} {z : Zone} (h : Bank.nth b.map i = .zoneTemp z) :
    b.shown i = ⟨Bank.nth b.inputs i, (Bank.nth b.applied i).isFlow⟩ := by
  rw [SensorBus.shown, h]
  by_cases hu : Bank.nth b.applied i = .unused
  · simp [hu, MapEntry.isFlow]
  · simp [hu]

/-- A zone's input list names the inputs that the map gives it, each with what it shows (R2, R22). -/
theorem mem_inputList (b : SensorBus) (z : Zone) (i : InputNo) (y : InputShown) : (i, y) ∈ b.inputList z ↔
    Bank.nth b.map i = .zoneTemp z ∧ y = ⟨Bank.nth b.inputs i, (Bank.nth b.applied i).isFlow⟩ := by
  have hmem : (i, y) ∈ b.inputList z ↔ Bank.nth b.map i = .zoneTemp z ∧ y = b.shown i := by
    simp [SensorBus.inputList, mem_allInputs, eq_comm]
  rw [hmem]
  exact and_congr_right fun h => by rw [shown_of_zoneTemp h]

/-! ### The two requests -/

/-- Settles O25: lock and mode judge a write; one that is taken replaces its groups and judges a pending start afresh, by
the cases of a start that falls due. -/
theorem zoneTable : Obligations.ZoneTable := by
  intro s f z w x h hx tab taken
  refine ⟨fun hm hl => ?taken, fun hx' hk => request_says h rfl (answerWriteZone_refused hx ?locked),
    fun hl hm => request_says h rfl (answerWriteZone_refused hx ?operating), ?read⟩
  case locked => simp [Control.zoneRefusal, hx', hk]
  case operating => simp [Control.zoneRefusal, hl, hm]
  case taken =>
    have hn : s.asTaken.cfc.zoneRefusal x = none := by simp [Control.zoneRefusal, hl, hm]
    have hpend : (s.asTaken.eng.zone z).pending = (s.eng.zone z).pending := by simp
    refine ⟨s.asTaken.takeZoneWrite z x, (s.asTaken.takeZoneWrite z x).zoneTableInfo z,
      request_gives h rfl (answerWriteZone_taken hx hn), State.takeZoneWrite_tab .., fun hr => takeZoneWrite_none _ z hr,
      fun hp => takeZoneWrite_unpended (hpend.trans hp) x, fun hr hp => ?dropped, ?due, rfl, ?_⟩
    case dropped =>
      rw [takeZoneWrite_some _ z hr, rejudgePending_dropped _ (hpend.trans hp) (reserve_changeZone _ z hr)]
      rfl
    case due =>
      intro r hr hp e becomes own held told
      have hdue {e' : Engine} (hd : e.reserveDue tab (Engine.grantScan tab) z r = e') : becomes e' := takeZoneWrite_due hr hp hd
      have hnot (ho : ¬ own) : e.ownReserve z = false := Bool.eq_false_iff.2 (mt (afresh_ownReserve s z).1 ho)
      have hready : e.part = .ready ↔ s.eng.part = .ready := afresh_ready s z
      have horder (c : ChannelNo) : e.order c = s.eng.order c := afresh_order s z c
      have hfetch : e.fetchFirst tab (.reserve z) 0 r.slot = s.eng.fetchFirst tab (.reserve z) 0 r.slot := afresh_fetchFirst ..
      refine ⟨takeZoneWrite_some _ z hr, fun ho => hdue (reserveDue_own ((afresh_ownReserve s z).2 ho)),
        fun ho hp => hdue (reserveDue_outside (hnot ho) (mt hready.1 hp)),
        fun ho hp hc => ⟨fun g hg => hdue ?fails, fun y hy => hdue ?starts⟩,
        fun o ho hp hc => ⟨fun y hy => hdue ?waits, fun hy hph hn => hdue ?takenOver⟩⟩
      case waits => exact reserveDue_reserve (hnot ho) (hready.2 hp) ((horder _).trans hc) hy
      case fails =>
        rw [reserveDue_idle (hnot ho) (hready.2 hp) ((horder _).trans hc), startReserve_error (hfetch.trans hg)]
        rfl
      case starts =>
        rw [reserveDue_idle (hnot ho) (hready.2 hp) ((horder _).trans hc), startReserve_ok (hfetch.trans hy)]
        rfl
      case takenOver =>
        rw [reserveDue_host (hnot ho) (hready.2 hp) ((horder _).trans hc) hy hph (by omega)]
        rfl
    · rw [State.zoneTableInfo, State.takeZoneWrite_tab, zone_changeZone_self]
      rfl
  case read =>
    refine ⟨s.asTaken.zoneInfo z, request_gives h rfl ?_, rfl, rfl, ?_, ?_, ?_, ?_, ?_, mem_inputList s.sbe z⟩
    · rw [answerReadZone, zoneOf_idx]
    all_goals simp [State.zoneInfo]

end Sys2Proof.Machine
end

section
/-! O16 to O20: START ORDER, HALT ORDER and QUERY CHANNEL. -/

namespace Sys2Proof.Machine

open Sys2Proof

/-! ### The operands of START ORDER (R50) -/

theorem hostClass_val : ∀ cls : Fin 4, cls ≠ 0 → hostClass cls.val = some cls := by decide

theorem startArgs_val (c : ChannelNo) {slot : SlotNo} {cls : Fin 4} {limit : Nat} (hs : slot.val ≤ 79) (hk : cls ≠ 0)
    (hl : limit ≤ 1800) : startArgs c.val slot.val cls.val limit = some (c, slot, cls) := by
  simp [startArgs, finOf_val, hostClass_val cls hk, hs, hl]

theorem startArgs_outside {c slot cls limit : Nat} (h : ¬ (c ≤ 5 ∧ slot ≤ 79 ∧ 1 ≤ cls ∧ cls ≤ 3 ∧ limit ≤ 1800)) :
    startArgs c slot cls limit = none := by
  by_cases hc : c < 6
  · by_cases hk : 1 ≤ cls ∧ cls ≤ 3
    · have hn : ¬ (slot ≤ 79 ∧ limit ≤ 1800) := by omega
      simp only [startArgs]
      split
      · exact if_neg hn
      · rfl
    · simp [startArgs, hostClass, hk]
  · simp [startArgs, finOf, hc]

/-! ### What START ORDER answers -/

section
variable {channel slot cls tag limit : Nat} {s : State} {c : ChannelNo} {first : SlotNo} {k : Fin 4}

theorem answerStart_outside (h : startArgs channel slot cls limit = none) :
    answerStart channel slot cls tag limit s = s.says .badArgument := by
  simp [answerStart, h]

variable (h : startArgs channel slot cls limit = some (c, first, k))
include h

theorem answerStart_refused {code : ReplyCode} {body : ReplyBody} (hr : s.startRefusal c = some (code, body)) :
    answerStart channel slot cls tag limit s = s.gives code body := by
  simp [answerStart, h, hr]

theorem answerStart_ended {g : Ending} (hr : s.startRefusal c = none)
    (hg : s.eng.fetchFirst s.tab .host k first = .error g) :
    answerStart channel slot cls tag limit s = s.gives .ended (.record (endedRecord c tag k g)) := by
  simp [answerStart, h, hr, hg]

theorem answerStart_taken {x : Copy} (hr : s.startRefusal c = none) (hx : s.eng.fetchFirst s.tab .host k first = .ok x) :
    answerStart channel slot cls tag limit s
      = (s.putEngine (s.eng.takeOrder s.tab (Engine.grantScan s.tab) c (newOrder .host tag k (some first) x limit))).says
          .taken := by
  simp [answerStart, h, hr, hx]

end

theorem asTaken_eng_ready {s : State} (h : s.eng.part = .ready) : s.asTaken.eng = s.eng := Engine.wakeUp_ready _ h

/-- A PARKED part that takes a request is WAKING (R197). -/
theorem asTaken_waking (s : State) : s.asTaken.eng.part = .waking ↔ s.eng.part = .waking ∨ s.eng.part = .parked := by
  rw [State.asTaken_eng, Engine.wakeUp_part]
  cases s.eng.part <;> simp

@[simp] theorem Engine.channel_wakeUp (e : Engine) (c : ChannelNo) : e.wakeUp.channel c = e.channel c := by
  simp [Engine.channel]

/-- Settles O18: the cases of R50 one after the other, each on the state in which the request is judged. -/
theorem startOrderTurnedAway : Obligations.StartOrderTurnedAway := by
  intro s f c slot cls tag limit h inRange waking comfort
  have refused (hin : inRange) {code : ReplyCode} {body : ReplyBody}
      (hr : ∀ k : ChannelNo, k.val = c → s.asTaken.startRefusal k = some (code, body)) :
      exec (.startOrder f c slot cls tag limit) s = .next (s.asTaken.answered f 0x90 code body) := by
    obtain ⟨hc, hs, hk, hk', hl⟩ := hin
    have hargs := startArgs_val ⟨c, by omega⟩ (slot := ⟨slot, by omega⟩) (cls := ⟨cls, by omega⟩) hs
      (fun h0 => absurd (congrArg Fin.val h0) (show cls ≠ 0 by omega)) hl
    exact request_gives h rfl (answerStart_refused hargs (hr _ rfl))
  refine ⟨fun hin => request_says h rfl (answerStart_outside (startArgs_outside hin)),
    fun hin hw => refused hin fun k _ => ?waking, fun hin hw hl => refused hin fun k _ => ?lockout,
    fun hin hw hl hc => refused hin fun k hk => ?comfort, fun hin hw hl hc ho => refused hin fun k hk => ?occupied⟩
  case waking => exact if_pos ((asTaken_waking s).2 hw)
  all_goals rw [State.startRefusal, if_neg (mt (asTaken_waking s).1 hw)]
  case lockout => exact if_pos hl
  all_goals rw [if_neg (show ¬ s.asTaken.cfc.lockout = true by simp [hl])]
  case comfort =>
    obtain ⟨rfl, hd⟩ := hc
    exact if_pos ⟨Fin.ext hk, by simpa using hd⟩
  case occupied =>
    have hcomfort : ¬ (k = comfortChannel ∧ s.asTaken.eng.crg.state ≠ .disabled) := by
      rintro ⟨rfl, hd⟩
      exact hc ⟨hk.symm, by simpa using hd⟩
    rw [if_neg hcomfort]
    exact if_pos (by simpa using ho k hk)

/-- A START ORDER that no case of R50 turns away (R50). -/
theorem startRefusal_none {s : State} {c : ChannelNo} (hp : s.eng.part = .ready) (hl : s.cfc.lockout = false)
    (hc : c ≠ 5 ∨ s.eng.crg.state = .disabled) (ho : s.eng.order c = none) (hq : (s.eng.channel c).recordQueued = false) :
    s.asTaken.startRefusal c = none := by
  have hcomfort : ¬ (c = comfortChannel ∧ s.eng.crg.state ≠ .disabled) := by
    rintro ⟨rfl, hd⟩
    exact hc.elim (fun h => h rfl) hd
  rw [State.startRefusal, asTaken_eng_ready hp]
  simp [hp, hl, hcomfort, ho, hq]

/-- Settles O17: no case turns the order away, and the failure of its fetch is the record's ending. -/
theorem startOrderEnded : Obligations.StartOrderEnded := by
  intro s f c slot cls tag limit g h hp hs hk hl hlock hc ho hq hg
  refine request_gives h rfl (answerStart_ended (startArgs_val c hs hk hl) (startRefusal_none hp hlock hc ho hq) ?_)
  rwa [asTaken_eng_ready hp]

/-! ### The grant scan over a lone claim (O16) -/

theorem settle_grants {e : Engine} {t : Tables} {set : ClaimSet} (h : e.unmet e.mar.grants set = none) :
    e.settle t set = e.grant t set := by
  rw [Engine.settle, h]

theorem settle_changes {e : Engine} {t : Tables} {set : ClaimSet} {w : WaitReason} (h : e.unmet e.mar.grants set = some w)
    (hm : e.onlyMode e.mar.grants set = true) : e.settle t set = e.beginModeChange t set := by
  rw [Engine.settle, h]
  exact if_pos hm

theorem settle_waits {e : Engine} {t : Tables} {set : ClaimSet} {w : WaitReason} (h : e.unmet e.mar.grants set = some w)
    (hm : e.onlyMode e.mar.grants set = false) : e.settle t set = e.setReason set.channel w := by
  rw [Engine.settle, h]
  exact if_neg (by simp [hm])

theorem submitBack_nil {e : Engine} (t : Tables) (c : ChannelNo) (o : Order) (h : e.mar.claims = []) :
    e.submitBack t c o = e.putClaims [claimSetOf t c o] := by
  rw [Engine.submitBack, h]
  rfl

section
variable {e : Engine} (t : Tables) (c : ChannelNo) {o : Order} (h : e.mar.claims = []) (hc : o.cls ≠ 0)
include h hc

/-- With no claim waiting, the scan that follows a submission settles the set submitted (R99). -/
theorem grantScan_submitBack :
    Engine.grantScan t (e.submitBack t c o) = (e.submitBack t c o).settle t (claimSetOf t c o) :=
  grantScan_single (by rw [submitBack_nil t c o h]; rfl) (.inl hc)

/-- A lone set that waits on its mode alone begins the mode change (R102, R103). -/
theorem grantScan_submitBack_changes {m : Circuit} (hm : (claimSetOf t c o).mode = some m)
    (hu : (e.submitBack t c o).unmet e.mar.grants (claimSetOf t c o) ≠ none)
    (ho : (e.submitBack t c o).onlyMode e.mar.grants (claimSetOf t c o) = true) :
    Engine.grantScan t (e.submitBack t c o) = { e with mar :=
      ⟨[{ claimSetOf t c o with reason := some .compressorEqualizing }], e.mar.grants,
        { e.mar.comp with condition := .equalizing m (t.tuning.equalizeTime * 10) }⟩ } := by
  obtain ⟨w, hw⟩ := Option.ne_none_iff_exists'.1 hu
  rw [grantScan_submitBack t c h hc, settle_changes hw ho, submitBack_nil t c o h, Engine.beginModeChange, hm]
  simp [Engine.setReason, Engine.putClaims]

/-- A lone set with another unmet entry is left waiting for the first of them (R95, R100). -/
theorem grantScan_submitBack_waits {w : WaitReason}
    (hu : (e.submitBack t c o).unmet e.mar.grants (claimSetOf t c o) = some w)
    (ho : (e.submitBack t c o).onlyMode e.mar.grants (claimSetOf t c o) = false) :
    Engine.grantScan t (e.submitBack t c o) = e.putClaims [{ claimSetOf t c o with reason := some w }] := by
  rw [grantScan_submitBack t c h hc, settle_waits hu ho, submitBack_nil t c o h]
  simp [Engine.setReason, Engine.putClaims]

end

/-- Role and valve entries that are grantable one by one, the compressor's apart, make a set grantable (R95 to R98). -/
theorem unmet_none_of_entries {e : Engine} {grants : List ClaimSet} {set : ClaimSet}
    (hr : ∀ r n, (r, n) ∈ set.roles → (e.output (e.mapped r)).state = .inService
      ∧ (r = .heater → sharesOn grants .heater + n ≤ 100) ∧ (r = .chiller → ¬ ∃ g ∈ grants, g.names .chiller = true))
    (hv : ∀ v q, (v, q) ∈ set.valves → (e.valve v).state ≠ .faulted ∧ ∀ g ∈ grants, ∀ q', (v, q') ∈ g.valves → q' = q)
    (hc : ∀ n, (.compressor, n) ∈ set.roles → compressorUnmet e.mar.comp grants set.mode n = none) :
    e.unmet grants set = none := by
  refine (unmet_none _ _ _).2 ⟨fun x hx => ?_, fun x hx => (valveUnmet_none _ _ _ _).2 (hv _ _ hx)⟩
  obtain ⟨hs, hh, hch⟩ := hr _ _ hx
  refine (roleUnmet_none _ _ _ _ _).2 ⟨hs, hh, hch, fun hcomp => hc x.2 ?_⟩
  rwa [← hcomp]

/-- A set whose compressor, held by none, runs in another mode waits on that mode: the first unmet entry is some
COMPRESSOR one, and no entry is unmet for another reason (R97, R102). -/
theorem onlyMode_of_entries {e : Engine} {grants : List ClaimSet} {set : ClaimSet} {n : Nat}
    (hn : (.compressor, n) ∈ set.roles) (hfree : ¬ ∃ g ∈ grants, g.names .compressor = true)
    (hr : ∀ r n, (r, n) ∈ set.roles → (e.output (e.mapped r)).state = .inService
      ∧ (r = .heater → sharesOn grants .heater + n ≤ 100) ∧ (r = .chiller → ¬ ∃ g ∈ grants, g.names .chiller = true))
    (hv : ∀ v q, (v, q) ∈ set.valves → (e.valve v).state ≠ .faulted ∧ ∀ g ∈ grants, ∀ q', (v, q') ∈ g.valves → q' = q)
    (hs : e.mar.comp.condition = .steady) (hm : e.mar.comp.mode ≠ none) (hm' : e.mar.comp.mode ≠ set.mode) :
    e.unmet grants set ≠ none ∧ e.onlyMode grants set = true := by
  have hcomp (n : Nat) (h : (.compressor, n) ∈ set.roles) :
      e.roleUnmet grants set.mode .compressor n = some .compressorMode := by
    simp [Engine.roleUnmet, (hr _ _ h).1, compressorUnmet, hs, (holdersOf_isEmpty grants .compressor).2 hfree, hm, hm']
  refine ⟨fun h => ?_, ?_⟩
  · have hno := ((unmet_none _ _ _).1 h).1 _ hn
    rw [hcomp n hn] at hno
    cases hno
  · simp only [Engine.onlyMode, Bool.and_eq_true, List.all_eq_true, (holdersOf_isEmpty grants .compressor).2 hfree, and_true]
    refine ⟨⟨List.any_eq_true.2 ⟨_, hn, by simp⟩, fun x hx => ?_⟩, fun x hx => ?_⟩
    · obtain ⟨hserves, hheater, hchiller⟩ := hr _ _ hx
      by_cases hx1 : x.1 = .compressor
      · rw [if_pos hx1, hx1]
        exact decide_eq_true (hcomp _ (hx1 ▸ hx))
      · rw [if_neg hx1, Option.isNone_iff_eq_none]
        exact (roleUnmet_none _ _ _ _ _).2 ⟨hserves, hheater, hchiller, fun h => absurd h hx1⟩
    · rw [Option.isNone_iff_eq_none]
      exact (valveUnmet_none _ _ _ _).2 (hv _ _ hx)

/-- A set whose first role has no IN-SERVICE output waits for that output, whatever its other entries (R95, R100). -/
theorem unmet_first_unavailable {e : Engine} {grants : List ClaimSet} {set : ClaimSet} {r : Role} {n : Nat}
    {rest : List (Role × Nat)} (hr : set.roles = (r, n) :: rest) (hs : (e.output (e.mapped r)).state ≠ .inService) :
    e.unmet grants set = some (.outputUnavailable r) ∧ e.onlyMode grants set = false := by
  have hu : e.roleUnmet grants set.mode r n = some (.outputUnavailable r) := by
    unfold Engine.roleUnmet
    cases h : (e.output (e.mapped r)).state with
    | inService => exact absurd h hs
    | faulted => rfl
    | testing => rfl
  refine ⟨by simp [Engine.unmet, hr, hu], ?_⟩
  simp [Engine.onlyMode, hr, hu]

/-- A grant sets the circuit to the compressor's mode, which UNSET leaves as it stands (R93, R117). -/
theorem grant_circuit (e : Engine) (t : Tables) (set : ClaimSet) :
    (e.grant t set).ost.circuit = (e.mar.comp.taken set).mode.getD e.ost.circuit := by
  have commands (a : Engine) : (a.commandValves t e.mar.grants set).ost.circuit = a.ost.circuit := by
    unfold Engine.commandValves
    refine List.foldlRecOn (motive := fun x : Engine => x.ost.circuit = a.ost.circuit) _ _ rfl (fun x h y _ => ?_)
    split
    · exact h
    · exact h
  have orders (a : Engine) (f : Order → Order) : (a.mapOrder set.channel f).ost = a.ost := by
    unfold Engine.mapOrder
    split <;> rfl
  unfold Engine.grant
  rw [commands, orders]
  rfl

theorem taken_eq (comp : Compressor) (set : ClaimSet) : comp.taken set
    = ⟨if set.names .compressor ∧ comp.mode = none then set.mode else comp.mode, comp.condition⟩ := by
  unfold Compressor.taken
  split <;> rfl

/-- A lone submission whose set is grantable: what the arbiter, the circuit, the orders and the valves are after the
scan that grants it (R55, R93, R119). -/
structure LoneGrant (t : Tables) (a g : Engine) (c : ChannelNo) (o : Order) : Prop where
  mar : g.mar = ⟨[], a.mar.grants ++ [claimSetOf t c o], a.mar.comp.taken (claimSetOf t c o)⟩
  circuit : g.ost.circuit = (a.mar.comp.taken (claimSetOf t c o)).mode.getD a.ost.circuit
  order : g.order c = some (o.granted t)
  others : ∀ d, d ≠ c → g.order d = a.order d
  valve : ∀ v q, (∀ y ∈ (claimSetOf t c o).valves, y.1 = v → y.2 = q) → g.valve v
    = if (∃ y ∈ (claimSetOf t c o).valves, y.1 = v) ∧ (valveHoldersOf a.mar.grants v).isEmpty then
        (a.valve v).command t.tuning.valveTimeout q else a.valve v

theorem loneGrant {a : Engine} (t : Tables) (c : ChannelNo) {o : Order} (hcl : a.mar.claims = []) (hc : o.cls ≠ 0)
    (h : ((a.putOrder c (some o)).submitBack t c o).unmet a.mar.grants (claimSetOf t c o) = none) :
    LoneGrant t a (Engine.grantScan t ((a.putOrder c (some o)).submitBack t c o)) c o := by
  have hg := (grantScan_submitBack (e := a.putOrder c (some o)) t c hcl hc).trans (settle_grants h)
  have horder (d : ChannelNo) : ((a.putOrder c (some o)).submitBack t c o).order d = if c = d then some o else a.order d :=
    order_putOrder a c d (some o)
  rw [hg]
  refine ⟨?_, grant_circuit _ _ _, ?_, fun d hd => ?_, fun v q hq => valve_grant _ _ _ _ _ hq⟩
  · rw [grant_mar]
    simp [Engine.submitBack, hcl, insertBack, claimSetOf]
  · rw [order_grant, if_pos (show (claimSetOf t c o).channel = c from rfl), horder, if_pos rfl]
    rfl
  · have hcd : ¬ c = d := fun k => hd k.symm
    rw [order_grant, if_neg (show ¬ (claimSetOf t c o).channel = d from hcd), horder, if_neg hcd]

/-- Settles O16: the owner's answer is the order taken; what the grant scan makes of its set when it waits alone is the
settling of that one set, by which of its entries are unmet. -/
theorem startOrderTaken : Obligations.StartOrderTaken := by
  intro s f c slot cls tag limit x h hp hs hk hl hlock hc ho hq hx o e
  refine And.intro ?taken fun hcl => ?lone
  case taken =>
    have hanswer := answerStart_taken (tag := tag) (startArgs_val c hs hk hl)
      (startRefusal_none hp hlock hc ho hq) (x := x) (by rwa [asTaken_eng_ready hp])
    rw [asTaken_eng_ready hp] at hanswer
    exact request_says h rfl hanswer
  intro p mar set held serves others valves compressor
  refine ⟨fun hr hv hcomp => ?granted, fun n m m' hn hr hv hm hpm hne hfree => ?changes, fun r n rest hroles hserves => ?waits⟩
  case granted =>
    have hunmet : e.unmet s.eng.mar.grants (claimSetOf s.tab c o) = none :=
      unmet_none_of_entries hr hv fun n hn => (compressorUnmet_none _ _ _ _).2 (hcomp n hn)
    intro g mode
    have hg : LoneGrant s.tab s.eng g c o := loneGrant s.tab c hcl hk hunmet
    have htaken := taken_eq s.eng.mar.comp (claimSetOf s.tab c o)
    refine ⟨hg.mar.trans (by rw [htaken]; rfl), hg.circuit.trans (by rw [htaken]; rfl), hg.order, hg.others,
      fun v hv => ?_, fun v q hvq hone => ?_⟩
    · have hno : ¬ ∃ y ∈ (claimSetOf s.tab c o).valves, y.1 = v := fun ⟨y, hy, hyv⟩ => hv y hy hyv
      rw [hg.valve v 0 (fun y hy hyv => absurd hyv (hv y hy)), if_neg fun h => hno h.1]
    · have hin : ∃ y ∈ (claimSetOf s.tab c o).valves, y.1 = v := ⟨_, hvq, rfl⟩
      rw [hg.valve v q (fun y hy hyv => hone y.2 (hyv ▸ hy))]
      by_cases hheld : ∃ g ∈ s.eng.mar.grants, g.namesValve v = true
      · rw [if_neg fun h => (valveHoldersOf_isEmpty _ _).1 h.2 hheld, if_pos (.inl hheld)]
      · rw [if_pos ⟨hin, (valveHoldersOf_isEmpty _ _).2 hheld⟩, ValveRec.command]
        exact if_congr ⟨.inr, fun h => h.resolve_left hheld⟩ rfl rfl
  case changes =>
    have hcomp : e.mar.comp = ⟨some m, .steady⟩ := hm
    obtain ⟨hunmet, honly⟩ := onlyMode_of_entries (e := e) (set := claimSetOf s.tab c o) hn hfree hr hv (by rw [hcomp])
      (by rw [hcomp]; nofun) (by rw [hcomp]; exact fun h => hne (Option.some.inj (h.trans hpm)).symm)
    refine (grantScan_submitBack_changes (e := s.eng.putOrder c (some o)) (o := o) s.tab c hcl hk hpm hunmet honly).trans ?_
    rw [Engine.putOrder_mar, show s.eng.mar.comp = _ from hm]
    rfl
  case waits =>
    obtain ⟨hunmet, honly⟩ := unmet_first_unavailable (e := e) (grants := mar.grants) (set := claimSetOf s.tab c o) hroles hserves
    exact grantScan_submitBack_waits (e := s.eng.putOrder c (some o)) s.tab c hcl hk hunmet honly

/-! ### Ends of an order (R75, R78, R79) -/

section
variable {e : Engine} (t : Tables) (k : Engine → Engine) {c : ChannelNo} {o : Order}

/-- The order of a host that has ended leaves its record, and the channel IDLE with the record flag set (R84). -/
theorem closeOrder_host (h : o.owner = .host) (g : Ending) :
    e.closeOrder c o g = (e.hand (.completion (recordOf c o g))).putChannel c ⟨none, true⟩ := by
  simp [Engine.closeOrder, h, Owner.formsRecord]

theorem endWaiting_host (h : o.owner = .host) (g : Ending) : e.endWaiting t k c o g
    = (k (((e.withdraw c).hand (.completion (recordOf c o g))).putChannel c ⟨none, true⟩)).servePending t k c := by
  rw [Engine.endWaiting, closeOrder_host h, h, Engine.regulatorTakes]

/-- The entry to ENDING of an order whose path has a run-down, when the regulator's state does not follow it (R78). -/
theorem enterEnd_runs (hn : (t.entry o.copy.path).runDown ≠ 0) {g : Ending} (h : ∀ a : Engine, a.regulatorTakes o.owner g = a)
    (b : Bool) : e.enterEnd t k c o g b = e.putOrder c (some (o.endingFor t g b)) := by
  rw [Engine.enterEnd, h, Engine.endIfImmediate, if_neg hn]

/-- The end of an order that is not the regulator's own leaves its state (R160). -/
theorem regulatorTakes_other {owner : Owner} (h : owner ≠ .regulator) (g : Ending) (a : Engine) :
    a.regulatorTakes owner g = a := by
  cases owner with
  | regulator => exact absurd rfl h
  | host => rfl
  | reserve z => rfl

theorem regulatorTakes_host (h : o.owner = .host) (g : Ending) (a : Engine) : a.regulatorTakes o.owner g = a :=
  regulatorTakes_other (by rw [h]; nofun) g a

variable (ho : e.order c = some o)
include ho

theorem imposeEnd_waiting (hp : o.phase = .waiting) (g : Ending) : e.imposeEnd t k c g = e.endWaiting t k c o g := by
  simp [Engine.imposeEnd, ho, hp]

theorem imposeEnd_active (hp : o.phase = .setting ∨ o.phase = .running) (g : Ending) :
    e.imposeEnd t k c g = e.enterEnd t k c o g false := by
  rcases hp with hp | hp <;> simp [Engine.imposeEnd, ho, hp]

/-- A transition run-down becomes the run-down of the end imposed (R75). -/
theorem imposeEnd_transition {r : RunDown} (hp : o.phase = .ending r) (hr : r.purpose = .transition) (g : Ending) :
    e.imposeEnd t k c g
      = (e.putOrder c (some { o with phase := .ending { r with purpose := .endWith g }, failure := none })).regulatorTakes
          o.owner g := by
  simp [Engine.imposeEnd, ho, hp, hr]

end

/-! ### HALT ORDER (O19) -/

section
variable {s : State} {c : ChannelNo} (hc : c ≠ 5 ∨ s.eng.crg.state = .disabled)
include hc

theorem not_comfort_occupied : ¬ (c = comfortChannel ∧ s.eng.crg.state ≠ .disabled) :=
  fun ⟨h, hd⟩ => hc.elim (fun k => k h) hd

theorem answerHalt_idle (ho : s.eng.order c = none) : answerHalt c.val s = s.says .idle := by
  simp only [answerHalt, finOf_val, if_neg (not_comfort_occupied hc), ho]

variable {o : Order} (ho : s.eng.order c = some o)
include ho

theorem answerHalt_reserve (h0 : o.cls = 0) : answerHalt c.val s = s.says .notPermitted := by
  simp only [answerHalt, finOf_val, if_neg (not_comfort_occupied hc), ho, if_pos h0]

variable (h0 : o.cls ≠ 0)
include h0

theorem answerHalt_ending {r : RunDown} {g : Ending} (hp : o.phase = .ending r) (hr : r.purpose = .endWith g) :
    answerHalt c.val s = s.says .ending := by
  obtain ⟨_, timer, length, entry, stopped⟩ := r
  cases hr
  simp only [answerHalt, finOf_val, if_neg (not_comfort_occupied hc), ho, if_neg h0, hp]

/-- An order that is not yet running down to an end has one imposed, HALTED (R79). -/
theorem answerHalt_taken (hp : ∀ r, o.phase = .ending r → r.purpose = .transition) : answerHalt c.val s
    = (s.putEngine (s.eng.imposeEnd s.tab (Engine.grantScan s.tab) c (.plain .halted))).says .taken := by
  simp only [answerHalt, finOf_val, if_neg (not_comfort_occupied hc), ho, if_neg h0]
  split
  · rename_i hph
    cases hp _ hph
  all_goals rfl

end

/-- Settles O19, by the state of the channel: what the owner answers, and what the imposed end makes of the order. -/
theorem haltOrder : Obligations.HaltOrder := by
  intro s f c h hc n
  have hc' : c ≠ 5 ∨ s.asTaken.eng.crg.state = .disabled := by simpa using hc
  have order {x : Option Order} (ho : s.eng.order c = x) : s.asTaken.eng.order c = x := (Engine.order_wakeUp _ _).trans ho
  have taken {o : Order} {e : Engine} (ho : s.eng.order c = some o) (h0 : o.cls ≠ 0) (hp : s.eng.part = .ready)
      (hph : ∀ r, o.phase = .ending r → r.purpose = .transition)
      (he : s.eng.imposeEnd s.tab (Engine.grantScan s.tab) c (.plain .halted) = e) :
      exec (.haltOrder f c.val) s = .next ((s.asTaken.putEngine e).answered f 0x91 .taken .none) := by
    have hanswer := answerHalt_taken hc' (order ho) h0 hph
    rw [asTaken_eng_ready hp, State.asTaken_tab, he] at hanswer
    exact request_says h rfl hanswer
  refine ⟨fun ho => request_says h rfl (answerHalt_idle hc' (order ho)),
    fun o ho h0 => request_says h rfl (answerHalt_reserve hc' (order ho) h0),
    fun o ho h0 hw hph hp => taken ho h0 hp (by simp [hph]) ?waiting,
    fun o ho h0 hw hph hn hp => taken ho h0 hp ?phase ?active,
    fun o r ho h0 hw hph hr hp => taken ho h0 hp ?purpose ?transition,
    fun o r g ho h0 hph hr => request_says h rfl (answerHalt_ending hc' (order ho) h0 hph hr)⟩
  case waiting => exact (imposeEnd_waiting _ _ ho hph _).trans (endWaiting_host _ _ hw _)
  case phase => rcases hph with hph | hph <;> simp [hph]
  case active =>
    have hdown : (s.tab.entry o.copy.path).runDown ≠ 0 := by
      intro h0
      simp [n, h0] at hn
    exact (imposeEnd_active _ _ ho hph _).trans (enterEnd_runs _ _ hdown (regulatorTakes_host hw _) _)
  case purpose =>
    intro r' hr'
    rw [hph] at hr'
    cases hr'
    exact hr
  case transition => exact (imposeEnd_transition _ _ ho hph hr _).trans (regulatorTakes_host hw _ _)

/-! ### QUERY CHANNEL (O20) -/

theorem key_eq_completion {x : Report} {c : ChannelNo} : x.key = .completion c ↔ ∃ r, x.body = .completion r ∧ r.channel = c := by
  obtain ⟨body, n⟩ := x
  cases body <;> simp [Report.key, ReportBody.key]

/-- Reports about other things hold no record of the channel (R167). -/
theorem recordIn_none {q : List Report} {c : ChannelNo} (h : ∀ x ∈ q, x.key ≠ .completion c) : recordIn q c = none := by
  rw [recordIn, List.findSome?_eq_none_iff]
  intro x hx
  have hk := mt key_eq_completion.2 (h x hx)
  cases hb : x.body with
  | completion r => exact if_neg fun hr => hk ⟨r, hb, hr⟩
  | progress n => rfl
  | zone z => rfl
  | output o => rfl

theorem withoutRecord_none {q : List Report} {c : ChannelNo} (h : ∀ x ∈ q, x.key ≠ .completion c) : withoutRecord q c = q :=
  List.filter_eq_self.2 fun x hx => decide_eq_true (h x hx)

section
variable {before after : List Report} {r : Record} (n : Nat)

/-- The one completion record of a channel is found and taken out wherever it stands (R80, R173). -/
theorem recordIn_standing (h : ∀ x ∈ before, x.key ≠ .completion r.channel) :
    recordIn (before ++ ⟨.completion r, n⟩ :: after) r.channel = some r := by
  have hb := recordIn_none h
  rw [recordIn] at hb ⊢
  rw [List.findSome?_append, hb]
  simp

theorem withoutRecord_standing (h : ∀ x ∈ before ++ after, x.key ≠ .completion r.channel) :
    withoutRecord (before ++ ⟨.completion r, n⟩ :: after) r.channel = before ++ after := by
  have hb := withoutRecord_none (q := before) fun x hx => h x (List.mem_append_left _ hx)
  have ha := withoutRecord_none (q := after) fun x hx => h x (List.mem_append_right _ hx)
  rw [withoutRecord] at hb ha ⊢
  rw [List.filter_append, hb, List.filter_cons_of_neg (by simp [Report.key, ReportBody.key]), ha]

end

/-- Settles O20: the record when one stands in the queue, else the context or IDLE. -/
theorem queryChannel : Obligations.QueryChannel := by
  intro s f h
  refine ⟨fun c hc => request_says h rfl ?bad, fun c => ⟨fun r n before after hq hr hk => request_gives h rfl ?record,
    fun hk => ⟨fun o ho => request_gives h rfl ?active, fun ho => request_says h rfl ?idle⟩⟩⟩
  case bad => simp [answerQuery, finOf, Nat.not_lt.2 hc]
  case record =>
    subst hr
    have hreports : s.asTaken.eng.reports = before ++ ⟨.completion r, n⟩ :: after := by simp [hq]
    have hfound := recordIn_standing (after := after) n fun x hx => hk x (List.mem_append_left _ hx)
    simp only [answerQuery, finOf_val, hreports, hfound, Engine.takeRecord, withoutRecord_standing n hk]
    simp
  all_goals
    have hnone := recordIn_none hk
    simp [answerQuery, finOf_val, hnone, ho]

end Sys2Proof.Machine
end

section
/-! O44, O45, O48, O49: the rows of a pending reserve start, of an order's timers and of the valves. -/

namespace Sys2Proof.Machine

open Sys2Proof

/-! ### A row that acts on the engine -/

theorem onEngine_gives {s : State} {f : Engine → Engine} {e : Engine} (hrun : s.run = .running) (h : f s.eng = e) :
    s.onEngine f = .next (s.putEngine e) := by
  simp [State.onEngine, State.whileRunning, hrun, h]

theorem onReady_gives {s : State} {f : Engine → Engine} {e : Engine} (hrun : s.run = .running) (hp : s.eng.part = .ready)
    (h : f s.eng = e) : s.onReady f = .next (s.putEngine e) := by
  simp [State.onReady, State.whileRunning, hrun, whenReady, hp, h]

theorem order_putValve (e : Engine) (v : ValveNo) (x : ValveRec) (c : ChannelNo) : (e.putValve v x).order c = e.order c := rfl

/-! What each row does, with the grant scan of its own that it makes (R99). -/

section
variable {s : State} {c : ChannelNo} {e : Engine} (hrun : s.run = .running)
include hrun

theorem exec_reservePendingStart (h : s.eng.servePending s.tab (Engine.grantScan s.tab) c = e) :
    exec (.reservePendingStart c) s = .next (s.putEngine e) :=
  show execReservePendingStart c s = _ from onEngine_gives hrun h

theorem exec_segmentTimeLimit (h : s.eng.timeLimitReached s.tab (Engine.grantScan s.tab) c = e) :
    exec (.segmentTimeLimit c) s = .next (s.putEngine e) :=
  show execSegmentTimeLimit c s = _ from onEngine_gives hrun h

theorem exec_leadEnd (h : s.eng.leadEnds s.tab c = e) : exec (.leadEnd c) s = .next (s.putEngine e) :=
  show execLeadEnd c s = _ from onEngine_gives hrun h

theorem exec_waitLimitReached (h : s.eng.waitLimitReached s.tab (Engine.grantScan s.tab) c = e) :
    exec (.waitLimitReached c) s = .next (s.putEngine e) :=
  show execWaitLimitReached c s = _ from onEngine_gives hrun h

theorem exec_runDownEnd (h : s.eng.runDownReached s.tab (Engine.grantScan s.tab) c = e) :
    exec (.runDownEnd c) s = .next (s.putEngine e) :=
  show execRunDownEnd c s = _ from onEngine_gives hrun h

variable {v : ValveNo} (hp : s.eng.part = .ready)
include hp

theorem exec_valveAtPosition (h : s.eng.valveArrives s.tab (Engine.grantScan s.tab) v = e) :
    exec (.valveAtPosition v) s = .next (s.putEngine e) := onReady_gives hrun hp h

theorem exec_valveDrift (h : s.eng.valveDrifts s.tab v = e) : exec (.valveDrift v) s = .next (s.putEngine e) :=
  onReady_gives hrun hp h

theorem exec_valveTestFirstLeg (h : s.eng.valveTestTurns s.tab v = e) :
    exec (.valveTestFirstLeg v) s = .next (s.putEngine e) := onReady_gives hrun hp h

theorem exec_valveTestPass (h : s.eng.valveTestPasses s.tab v = e) :
    exec (.valveTestPass v) s = .next (s.putEngine e) := onReady_gives hrun hp h

/-- A valve whose travel has run out of time faults (R120, R128). -/
theorem exec_valveTravelTimeout (hv : (s.eng.valve v).timedOut = true)
    (h : s.eng.valveFaults s.tab (Engine.grantScan s.tab) v .travelTimeout = e) :
    exec (.valveTravelTimeout v) s = .next (s.putEngine e) := onReady_gives hrun hp ((if_pos hv).trans h)

/-- A valve whose feedback is gone faults (R120, R128). -/
theorem exec_valveFeedbackLost (hv : (s.eng.valve v).feedbackGone = true)
    (h : s.eng.valveFaults s.tab (Engine.grantScan s.tab) v .feedbackLost = e) :
    exec (.valveFeedbackLost v) s = .next (s.putEngine e) := onReady_gives hrun hp ((if_pos hv).trans h)

end

/-! ### A pending reserve start (O44) -/

/-- A fold over the zones of which one alone does something. -/
theorem foldl_one_zone (f : Engine → Zone → Engine) (e e' : Engine) (z : Zone) (h0 : ∀ y, y ≠ z → f e y = e)
    (h1 : f e z = e') (h2 : ∀ y, y ≠ z → f e' y = e') : Zone.all.foldl f e = e' := by
  obtain ⟨i, hi, ha, hb⟩ : ∃ i : Fin 6, Zone.all = Zone.all.take i ++ z :: Zone.all.drop (i + 1)
      ∧ z ∉ Zone.all.take i ∧ z ∉ Zone.all.drop (i + 1) := by cases z <;> decide
  rw [hi, List.foldl_append, foldl_keeps f _ e fun y hy => h0 y fun k => ha (k ▸ hy), List.foldl_cons, h1,
    foldl_keeps f _ e' fun y hy => h2 y fun k => hb (k ▸ hy)]

section
variable {t : Tables} (k : Engine → Engine) {c : ChannelNo} {e : Engine} {z : Zone}

/-- A zone with no reserve on the channel, or with none pending, is not served (R143). -/
theorem serveZone_skips (h : ∀ slot, (t.zone z).reserve = some ⟨c, slot⟩ → (e.zone z).pending = false) :
    Engine.serveZone t k c e z = e := by
  unfold Engine.serveZone
  split
  · rfl
  · rename_i r hr
    refine if_neg fun ⟨hc, hp, _⟩ => ?_
    subst hc
    simp [h r.slot hr] at hp

theorem serveZone_serves {slot : SlotNo} (hr : (t.zone z).reserve = some ⟨c, slot⟩) (hp : (e.zone z).pending = true)
    (ho : e.order c = none) : Engine.serveZone t k c e z = ((e.setPending z false).startReserve t k z ⟨c, slot⟩).handZone z := by
  simp [Engine.serveZone, hr, hp, ho]

end

/-- The one zone pending for an IDLE channel is served, and no other becomes pending by it (R143). -/
theorem servePending_one {e : Engine} {t : Tables} {c : ChannelNo} {z : Zone} {slot : SlotNo} (hpart : e.part = .ready)
    (ho : e.order c = none) (hp : (e.zone z).pending = true) (hr : (t.zone z).reserve = some ⟨c, slot⟩)
    (hone : ∀ y x, y ≠ z → (t.zone y).reserve = some ⟨c, x⟩ → (e.zone y).pending = false) :
    e.servePending t (Engine.grantScan t) c
      = ((e.setPending z false).startReserve t (Engine.grantScan t) z ⟨c, slot⟩).handZone z := by
  have hstart := grants_startReserve (e.setPending z false) t z ⟨c, slot⟩
  rw [Engine.servePending, hpart]
  refine foldl_one_zone _ _ _ z (fun y hy => serveZone_skips _ fun x hx => hone y x hy hx) (serveZone_serves _ hr hp ho)
    (fun y hy => serveZone_skips _ fun x hx => hstart.pending y ?_)
  rw [Engine.setPending, Engine.zone_putZone_ne _ _ (fun k => hy k.symm)]
  exact hone y x hy hx

/-- Settles O44: the one pending zone is served, and its start is made or fails at the first segment. -/
theorem reservePendingStarts : Obligations.ReservePendingStarts := by
  intro s c z slot hrun hpart ho hp hr hone e told
  have hserve := servePending_one hpart ho hp hr hone
  have hfetch : e.fetchFirst s.tab (.reserve z) 0 slot = s.eng.fetchFirst s.tab (.reserve z) 0 slot :=
    fetchFirst_congr (Engine.zoneStates_setPending _ _ _) _ _ _ _
  refine ⟨fun g hg => exec_reservePendingStart hrun (hserve.trans ?_),
    fun x hx => exec_reservePendingStart hrun (hserve.trans ?_)⟩
  · rw [startReserve_error (r := ⟨c, slot⟩) (hfetch.trans hg)]
    rfl
  · rw [startReserve_ok (r := ⟨c, slot⟩) (hfetch.trans hx)]
    rfl

/-! ### The timers of an order (O45) -/

section
variable (t : Tables) {c : ChannelNo} {n : Nat} (f : Forming) {o : Order} (e : Engine) (cause : Cause)

/-- A short end that the copy does not tolerate ends the order (R63). -/
theorem chainOn_short (h : o.copy.flags.shortOk = false) :
    Engine.chainOn t c (n + 1) (.short cause) f o e = (e, .endFor o (.plain cause)) := by
  simp [Engine.chainOn, h]

/-- A tolerated short end without a chain ends the order COMPLETE, and is noted (R63, R71). -/
theorem chainOn_tolerated (h : o.copy.flags.shortOk = true) (hc : o.copy.chains = false) :
    Engine.chainOn t c (n + 2) (.short cause) f o e
      = (e, .endFor { o with notes := { o.notes with shortSeen := true } } (.plain .complete)) := by
  simp [Engine.chainOn, h, hc]

end

section
variable {e : Engine} (t : Tables) (k : Engine → Engine) {c : ChannelNo} {o : Order}

theorem takeCourse_ends (m : MeterRec) (hn : (t.entry o.copy.path).runDown ≠ 0) {g : Ending}
    (h : ∀ a : Engine, a.regulatorTakes o.owner g = a) :
    e.takeCourse t k c m (.endFor o g) = e.putOrder c (some (o.endingFor t g false)) := by
  rw [Engine.takeCourse, enterEnd_runs t k hn h, Engine.putOrder_putOrder]

theorem finish_host (h : o.owner = .host) (g : Ending) : e.finish t k c o g
    = ((e.hand (.completion (recordOf c o g))).putChannel c ⟨none, true⟩).servePending t k c := by
  rw [Engine.finish, closeOrder_host h]

/-- The successor of a transition that passes its setup check waits with its own set (R69). -/
theorem resume_next {x : Copy} (hx : o.next = some x) (hs : e.setup t o.owner x = none) : e.resume t k c o
    = (k ((e.putOrder c (some (o.resumed t x))).submitFront t c (o.resumed t x))).prefetch t c := by
  simp [Engine.resume, hx, hs]

variable (ho : e.order c = some o)
include ho

/-- A segment at its time limit takes the course of a short end (R62, R71). -/
theorem timeLimitReached_due (h : o.phase = .running ∧ o.remaining ≠ some 0 ∧ o.copy.timeLimit ≠ 0
      ∧ o.copy.timeLimit * 10 ≤ o.segTime) {e' : Engine} {x : Course}
    (hx : Engine.chainOn t c (chainFuel o) (.short .time) .regulate o e = (e', x)) :
    e.timeLimitReached t k c = e'.takeCourse t k c (e.meter (o.path t).meter) x := by
  simp only [Engine.timeLimitReached, ho, if_pos h, hx]

theorem leadEnds_due (h : o.phase = .running ∧ o.lead = some 0) :
    e.leadEnds t c = e.putOrder c (some (({ o with lead := none } : Order).formed (o.path t))) := by
  simp only [Engine.leadEnds, ho, if_pos h]

theorem waitLimitReached_due (h : o.phase = .waiting) (hl : o.waitLimit ≠ 0) (hw : o.waitLimit * 10 ≤ o.waitTimer) :
    e.waitLimitReached t k c = e.endWaiting t k c o (.plain .starved) := by
  simp [Engine.waitLimitReached, ho, h, Order.waitOver, hl, hw]

/-- A run-down at 0 releases what its channel holds, and its purpose follows (R78, R94). -/
theorem runDownReached_due {r : RunDown} (h : o.phase = .ending r) (h0 : r.timer = 0) : e.runDownReached t k c
    = (if e.holds c then k (e.release c) else e).afterRunDown t k c o r := by
  simp [Engine.runDownReached, Engine.runDownEnd, ho, h, h0]

end

/-- Settles O45, one row after the other: the time limit by the course of its short end, the wait by the end of a
WAITING order, the run-down by its purpose. -/
theorem orderTimers : Obligations.OrderTimers := by
  intro s c o hrun ho p n k endedWith limitReached
  have hdown (h : 0 < n) : (s.tab.entry o.copy.path).runDown ≠ 0 := fun h0 => by simp [n, p, h0] at h
  refine ⟨fun hl hn hs => exec_segmentTimeLimit hrun ?time,
    fun hl hn hw hs hcont hnext => exec_segmentTimeLimit hrun ?tolerated,
    fun hp hl => exec_leadEnd hrun (leadEnds_due _ ho ⟨hp, hl⟩),
    fun hp hw hl ht => exec_waitLimitReached hrun ((waitLimitReached_due _ _ ho hp hl ht).trans (endWaiting_host _ _ hw _)),
    fun r hp h0 => ⟨fun g hg hw => exec_runDownEnd hrun ?ended, fun x hr hx hsetup => exec_runDownEnd hrun ?resumed⟩⟩
  case time =>
    refine (timeLimitReached_due _ _ ho hl (chainOn_short _ _ _ _ hs)).trans ?_
    exact takeCourse_ends _ _ _ (hdown hn) fun a => regulatorTakes_time a _
  case tolerated =>
    have hchains : o.copy.chains = false := by simp [Copy.chains, hcont, hnext]
    refine (timeLimitReached_due _ _ ho hl (chainOn_tolerated _ _ _ _ hs hchains)).trans ?_
    refine (takeCourse_ends (o := { o with notes := { o.notes with shortSeen := true } }) s.tab k _ (hdown hn)
      fun a => regulatorTakes_other hw _ a).trans ?_
    rfl
  case ended =>
    refine (runDownReached_due _ _ ho hp h0).trans ?_
    rw [Engine.afterRunDown, hg]
    exact finish_host _ _ hw _
  case resumed =>
    refine (runDownReached_due _ _ ho hp h0).trans ?_
    rw [Engine.afterRunDown, hr]
    exact resume_next _ _ hx hsetup

/-! ### The travels of a valve (O48) -/

section
variable {t : Tables} (k : Engine → Engine) {v : ValveNo} {e : Engine} {c : ChannelNo}

/-- A channel that is not in SETTING, or whose path does not name the valve, does not enter RUNNING by it. -/
theorem enterIfStanding_skips
    (h : ∀ o, e.order c = some o → o.phase = .setting → ∀ y ∈ (o.path t).valves, y.1 ≠ v) :
    Engine.enterIfStanding t k v e c = e := by
  unfold Engine.enterIfStanding
  split
  · rfl
  · rename_i o ho
    refine if_neg fun ⟨hp, hv, _⟩ => ?_
    obtain ⟨y, hy, hyv⟩ := List.any_eq_true.1 hv
    exact h o ho hp y hy (of_decide_eq_true hyv)

theorem enterIfStanding_enters {o : Order} (ho : e.order c = some o) (hp : o.phase = .setting)
    (hv : ∃ y ∈ (o.path t).valves, y.1 = v)
    (hs : ∀ y ∈ (o.path t).valves, (e.valve y.1).state = .atPosition ∧ (e.valve y.1).commanded = some y.2) :
    Engine.enterIfStanding t k v e c = e.enterRunning t k c o := by
  have hany : (o.path t).valves.any (fun x => x.1 = v) = true := by simpa [List.any_eq_true] using hv
  have hstand : e.valvesStand (o.path t) = true := by simpa [Engine.valvesStand, List.all_eq_true] using hs
  simp [Engine.enterIfStanding, ho, hp, hany, hstand]

theorem valveArrives_stops (t : Tables) (h : (e.valve v).state = .travelling) (ha : (e.valve v).arrived = true) :
    e.valveArrives t k v = allChannels.foldl (Engine.enterIfStanding t k v)
      (e.putValve v { e.valve v with state := .atPosition, travelTimer := 0 }) := by
  simp [Engine.valveArrives, h, ha]

/-- The entry to RUNNING on a VALID meter, of a copy without PROGRESS (R56). -/
theorem enterRunning_valid {o : Order} (t : Tables) (hg : o.copy.flags.progress = false)
    (hm : (e.meter (o.path t).meter).state = .valid) : e.enterRunning t k c o
      = e.putOrder c (some (({ o.entered t with meterHeld := false } : Order).formed (o.path t))) := by
  simp [Engine.enterRunning, Engine.handProgress, hg, hm]

/-- A test that stands at 0 turns: the valve is commanded back (R128). -/
theorem valveTestTurns_due (t : Tables) {back : Nat} (ht : (e.valve v).test = some ⟨.toZero, back⟩)
    (hr : (e.valve v).reads 0 = true) : e.valveTestTurns t v = e.putValve v { e.valve v with
      commanded := some back, travelTimer := t.tuning.valveTimeout * 10, test := some ⟨.back, back⟩ } := by
  simp [Engine.valveTestTurns, ht, hr]

/-- A test that stands at the position it returns to passes (R128). -/
theorem valveTestPasses_due (t : Tables) {back : Nat} (ht : (e.valve v).test = some ⟨.back, back⟩)
    (hr : (e.valve v).reads back = true) : e.valveTestPasses t v = Engine.grantScan t (e.putValve v { e.valve v with
      state := .atPosition, commanded := some back, travelTimer := 0, driftCount := 0, fault := none, test := none }) := by
  simp [Engine.valveTestPasses, ht, hr]

end

/-- The lead of an order at its entry to RUNNING: none in a MEASURE segment or below the threshold (R58, R59). -/
theorem entered_eq (t : Tables) (o : Order) : o.entered t = { o with
    phase := .running, corrections := noCorrections, runFlag := true
    lead := if o.copy.flags.measure = false ∧ t.tuning.leadThreshold ≤ o.copy.rate then some (t.tuning.leadTime * 10)
      else none } := by
  unfold Order.entered Order.withLeadApplied
  by_cases h : o.copy.flags.measure = false ∧ t.tuning.leadThreshold ≤ o.copy.rate <;> simp [h]

/-- Settles O48: an arrival by the one channel, if any, that waits for the valve; the other rows by their conditions. -/
theorem valveTravels : Obligations.ValveTravels := by
  intro s v hrun hp x stands
  refine ⟨fun hst ha => ⟨fun hno => exec_valveAtPosition hrun hp ?alone,
      fun c o ho hph hg hothers hv hstand hm => exec_valveAtPosition hrun hp ?enters⟩,
    fun hst hd => exec_valveDrift hrun hp ?drift, fun back ht hr => exec_valveTestFirstLeg hrun hp ?turns,
    fun back ht hr => exec_valveTestPass hrun hp ?passes⟩
  case alone =>
    refine (valveArrives_stops _ s.tab hst ha).trans (foldl_keeps _ _ _ fun c _ => enterIfStanding_skips _ fun o ho => ?_)
    rw [order_putValve] at ho
    exact hno c o ho
  case enters =>
    refine (valveArrives_stops _ s.tab hst ha).trans
      (foldl_one_channel _ _ _ c (fun d hd => enterIfStanding_skips _ fun o' ho' => ?_) ?_
        (fun d hd => enterIfStanding_skips _ fun o' ho' => ?_))
    · rw [order_putValve] at ho'
      exact hothers d o' hd ho'
    · have hvalid : (stands.meter (o.path s.tab).meter).state = .valid := hm
      rw [enterIfStanding_enters (e := stands) _ ho hph hv hstand, enterRunning_valid _ s.tab hg hvalid, entered_eq]
      rfl
    · rw [Engine.order_putOrder_ne _ _ (fun k => hd k.symm), order_putValve] at ho'
      exact hothers d o' hd ho'
  case drift => exact if_pos ⟨hst, hd⟩
  case turns => exact valveTestTurns_due s.tab ht hr
  case passes => exact valveTestPasses_due s.tab ht hr

/-! ### The faults of a valve (O49) -/

/-- An order in SETTING whose path claims a valve (R75, R120). -/
def Order.setsValve (o : Order) (t : Tables) (v : ValveNo) : Prop :=
  o.phase = .setting ∧ ∃ y ∈ (o.path t).valves, y.1 = v

section
variable {t : Tables} (k : Engine → Engine) {v : ValveNo} {e : Engine} {c : ChannelNo}

theorem endIfClaims_skips (h : ∀ o, e.order c = some o → ¬ o.setsValve t v) : Engine.endIfClaims t k v e c = e := by
  unfold Engine.endIfClaims
  split
  · rfl
  · rename_i o ho
    refine if_neg fun ⟨hp, hv⟩ => h o ho ⟨hp, ?_⟩
    simpa [List.any_eq_true] using hv

/-- A SETTING host order that claims a faulted valve runs down VALVE-FAULT (R75, R120). -/
theorem endIfClaims_ends {o : Order} (ho : e.order c = some o) (h : o.setsValve t v) (hw : o.owner = .host)
    (hn : (o.path t).runDown ≠ 0) :
    Engine.endIfClaims t k v e c = e.putOrder c (some (o.endingFor t (.valveFault v) false)) := by
  have hany : (o.path t).valves.any (fun x => x.1 = v) = true := by simpa [List.any_eq_true] using h.2
  have himpose : Engine.endIfClaims t k v e c = e.imposeEnd t k c (.valveFault v) := by
    simp [Engine.endIfClaims, ho, h.1, hany]
  rw [himpose, imposeEnd_active t k ho (.inl h.1)]
  exact enterEnd_runs t k hn (regulatorTakes_host hw _) _

/-- A valve that faults where no order in SETTING claims it: its record alone changes (R120). -/
theorem valveFaults_alone (f : ValveFault) (h : ∀ c o, e.order c = some o → ¬ o.setsValve t v) :
    e.valveFaults t k v f = e.putValve v ((e.valve v).faultedWith f) :=
  foldl_keeps _ _ _ fun c _ => endIfClaims_skips k fun o ho => h c o ho

/-- A valve that faults where one channel in SETTING claims it: that channel's order ends (R75, R120). -/
theorem valveFaults_one (f : ValveFault) {o : Order} (ho : e.order c = some o) (h : o.setsValve t v) (hw : o.owner = .host)
    (hn : (o.path t).runDown ≠ 0) (hothers : ∀ d o', d ≠ c → e.order d = some o' → ¬ o'.setsValve t v) :
    e.valveFaults t k v f
      = (e.putValve v ((e.valve v).faultedWith f)).putOrder c (some (o.endingFor t (.valveFault v) false)) := by
  refine foldl_one_channel _ _ _ c (fun d hd => endIfClaims_skips k fun o' ho' => hothers d o' hd ho')
    (endIfClaims_ends k ho h hw hn) (fun d hd => endIfClaims_skips k fun o' ho' => hothers d o' hd ?_)
  exact (Engine.order_putOrder_ne (e.putValve v _) _ (fun k => hd k.symm)).symm.trans ho'

end

/-! When a valve has run out of time, in service or in a test, and when its feedback is gone (R120, R128). -/

section
variable {x : ValveRec} {b : Nat}

theorem timedOut_travel (h : x.travelTimer = 0) (hs : x.state = .travelling) (ha : x.arrived = false) :
    x.timedOut = true := by
  simp [ValveRec.timedOut, h, hs, ha]

theorem timedOut_toZero (h : x.travelTimer = 0) (hs : x.state = .faulted) (ht : x.test = some ⟨.toZero, b⟩)
    (hr : x.reads 0 = false) : x.timedOut = true := by
  simp [ValveRec.timedOut, h, hs, ht, hr]

theorem timedOut_back (h : x.travelTimer = 0) (hs : x.state = .faulted) (ht : x.test = some ⟨.back, b⟩)
    (hr : x.reads b = false) : x.timedOut = true := by
  simp [ValveRec.timedOut, h, hs, ht, hr]

theorem feedbackGone_of (hm : x.missCount = 3) (h : x.state ≠ .faulted ∨ x.test ≠ none) : x.feedbackGone = true := by
  simpa [ValveRec.feedbackGone, hm, Option.isSome_iff_ne_none] using h

end

/-- Settles O49: both rows are the valve's fault, which reaches the one channel in SETTING that claims it, if any. -/
theorem valveFaults : Obligations.ValveFaults := by
  intro s v hrun hp x claims faults
  have hfaults (i : Instr) (f : ValveFault)
      (hi : ∀ e, s.eng.valveFaults s.tab (Engine.grantScan s.tab) v f = e → exec i s = .next (s.putEngine e)) :
      faults i f := by
    refine ⟨fun hno => hi _ (valveFaults_alone _ f fun c o ho => hno c o ho), fun c o ho hc hothers hn hw => hi _ ?_⟩
    have hdown : (o.path s.tab).runDown ≠ 0 := fun h0 => by
      rw [show (s.tab.entry o.copy.path).runDown = 0 from h0] at hn
      cases hn
    exact valveFaults_one _ f ho hc hw hdown fun d o' hd ho' => hothers d o' hd ho'
  refine ⟨fun ht hcase => hfaults _ _ fun e => exec_valveTravelTimeout hrun hp ?timeout,
    fun hm hcase => hfaults _ _ fun e => exec_valveFeedbackLost hrun hp ?lost⟩
  case timeout =>
    rcases hcase with ⟨hs, ha⟩ | ⟨hs, ⟨b, htest, hr⟩ | ⟨b, htest, hr⟩⟩
    · exact timedOut_travel ht hs ha
    · exact timedOut_toZero ht hs htest hr
    · exact timedOut_back ht hs htest hr
  case lost => exact feedbackGone_of hm hcase

end Sys2Proof.Machine
end

section
/-! O41: what a scan end makes of a RUNNING order that it neither ends nor disturbs. -/

namespace Sys2Proof.Machine

open Sys2Proof

/-! ### A RUNNING order that goes on -/

/-- A RUNNING order that a scan end's heat does not complete: its meter is not held, no lead, no chain and no time limit
comes to it (R58, R62, R65). -/
structure Order.GoesOn (o : Order) (r heat : Nat) : Prop where
  running : o.phase = .running
  remaining : o.remaining = some r
  below : heat < r
  unheld : o.meterHeld = false
  lead : o.lead = none
  chains : o.copy.chains = false
  time : o.copy.timeLimit = 0 ∨ o.segTime + 1 < o.copy.timeLimit * 10

/-- A RUNNING order after a scan end's count of heat (R60, R62). -/
def Order.countedOn (o : Order) (r heat : Nat) : Order :=
  { o with
    orderTime := o.orderTime + 1, segTime := o.segTime + 1, delivered := o.delivered + heat, remaining := some (r - heat) }

/-- A RUNNING order after a scan end that it goes on through: counted, and regulated from the metered rate (R57, R60). -/
def Order.wentOn (o : Order) (p : PathEntry) (r heat metered : Nat) : Order :=
  let moved := movedCorrections p o.copy metered o.corrections
  { o.countedOn r heat with corrections := moved, demands := runDemands p o.copy moved false }

section
variable {o : Order} {r heat : Nat} (h : o.GoesOn r heat)
include h

theorem ranScan_goesOn (due : DueMode) : o.ranScan heat due = o.countedOn r heat := by
  cases due <;> simp [Order.ranScan, Order.countSegment, h.remaining, Nat.not_lt.2 h.below.le, h.lead, Order.countedOn]

theorem segmentEnd_none {e : Engine} {p : PathEntry} (hs : (e.zone p.source).depleted = false)
    (hf : (e.zone p.sink).full = false) : e.segmentEnd p (o.countedOn r heat) = none := by
  have hremaining : r - heat ≠ 0 := Nat.sub_ne_zero_of_lt h.below
  have htime : ¬ (o.copy.timeLimit ≠ 0 ∧ o.copy.timeLimit * 10 ≤ o.segTime + 1) := by
    rcases h.time with ht | ht <;> omega
  simp only [Engine.segmentEnd, Order.countedOn, Option.some.injEq, if_neg hremaining, if_neg htime, hs, hf,
    Bool.false_eq_true, if_false]

theorem prefetchOrder_goesOn (e : Engine) (t : Tables) : e.prefetchOrder t (o.countedOn r heat) = o.countedOn r heat := by
  have hc : (o.countedOn r heat).copy.chains = false := h.chains
  simp [Engine.prefetchOrder, prefetchDue, hc]

theorem regulated_goesOn {m : MeterRec} {rate : Int} (p : PathEntry) (hm : m.countingRate = some rate) :
    (o.countedOn r heat).regulated p m = o.wentOn p r heat (inSense p.sense rate) := by
  simp [Order.regulated, Order.countedOn, h.unheld, Order.formed, meteredRate, hm, Order.leading, h.lead, Order.wentOn]

/-- The work of a channel in RUNNING whose segment goes on (R57, R60, R62). -/
theorem runningWork_goesOn {e : Engine} (t : Tables) (k : Engine → Engine) {f : ScanFigures} (c : ChannelNo) {rate : Int}
    (hheat : f.counted (o.path t) = heat) (hm : (e.meter (o.path t).meter).countingRate = some rate)
    (hs : (e.zone (o.path t).source).depleted = false) (hf : (e.zone (o.path t).sink).full = false) :
    e.runningWork t k f c o = e.putOrder c (some (o.wentOn (o.path t) r heat (inSense (o.path t).sense rate))) := by
  simp only [Engine.runningWork, hheat, ranScan_goesOn h, segmentEnd_none h hs hf, prefetchOrder_goesOn h, Engine.takeCourse]
  rw [show (o.countedOn r heat).path t = o.path t from rfl, regulated_goesOn h _ hm]

end

/-! ### A scan end with one order in it -/

/-- An engine in which one channel alone runs an order. -/
structure Engine.RunsAlone (e : Engine) (c : ChannelNo) (o : Order) : Prop where
  order : e.order c = some o
  idle : ∀ d, d ≠ c → e.order d = none

theorem Engine.RunsAlone.putOrder {e : Engine} {c : ChannelNo} {o : Order} (h : e.RunsAlone c o) (o' : Order) :
    (e.putOrder c (some o')).RunsAlone c o' where
  order := Engine.order_putOrder_self _ _ _
  idle d hd := (Engine.order_putOrder_ne _ _ fun k => hd k.symm).trans (h.idle d hd)

theorem Engine.RunsAlone.same {a b : Engine} {c : ChannelNo} {o : Order} (h : a.RunsAlone c o)
    (hb : b.channels = a.channels) : b.RunsAlone c o := by
  have horder (d : ChannelNo) : b.order d = a.order d := by simp [Engine.order, Engine.channel, hb]
  exact ⟨(horder c).trans h.order, fun d hd => (horder d).trans (h.idle d hd)⟩

/-- A fold over distinct channels of which one alone does something. -/
theorem foldl_one_of_nodup {f : Engine → ChannelNo → Engine} {e e' : Engine} {c : ChannelNo} {l : List ChannelNo}
    (hl : l.Nodup) (h0 : ∀ d, d ≠ c → f e d = e) (h1 : f e c = e') (h2 : ∀ d, d ≠ c → f e' d = e') :
    l.foldl f e = if c ∈ l then e' else e := by
  induction l with
  | nil => rfl
  | cons d l ih =>
    obtain ⟨hd, hl⟩ := List.nodup_cons.1 hl
    rw [List.foldl_cons]
    by_cases hc : d = c
    · subst hc
      rw [h1, if_pos List.mem_cons_self, foldl_keeps f l e' fun x hx => h2 x fun k => hd (k ▸ hx)]
    · rw [h0 d hc, ih hl]
      exact if_congr (by simp [show c ≠ d from fun k => hc k.symm]) rfl rfl

theorem channelWork_idle (e : Engine) (t : Tables) (k : Engine → Engine) (f : ScanFigures) (c : ChannelNo) (o : Option Order)
    (h : e.order c = none) : e.channelWork t k f c o = e := by
  unfold Engine.channelWork
  rw [h]
  split
  · rename_i hx
    cases hx
  · rfl

/-- A channel that was RUNNING when the scan end began and still is works as a RUNNING one (R49). -/
theorem channelWork_running {e : Engine} {o : Order} (t : Tables) (k : Engine → Engine) (f : ScanFigures) {c : ChannelNo}
    (ho : e.order c = some o) (hp : o.phase = .running) : e.channelWork t k f c (some o) = e.runningWork t k f c o := by
  simp [Engine.channelWork, ho, hp]

/-- Zones whose readings leave them in their states are judged without effect (R137). -/
theorem judgeZones_stand {e : Engine} {t : Tables} {r : Bank Reading 6} (k : Engine → Engine)
    (h : ∀ z, (e.zone z).state = zoneNext (t.zone z).limits (Bank.nth r z.idx) (e.zone z).state) : e.judgeZones t k r = e :=
  foldl_keeps _ _ _ fun z _ => if_pos (h z).symm

theorem comfortJudge_disabled {e : Engine} (h : e.crg.state = .disabled) (t : Tables) (k : Engine → Engine) (b : Bool)
    (mean : Option Int) : e.comfortJudge t k b mean = e := by
  unfold Engine.comfortJudge
  rw [h]

/-- What the work of a scan end finds where one RUNNING order goes on undisturbed: the regulator DISABLED, the zones
standing, those of the path neither depleted nor full, and the path's meter counting with a rate (R57, R62, R137). -/
structure Engine.Undisturbed (e : Engine) (t : Tables) (readings : Bank Reading 6) (p : PathEntry) (rate : Int) : Prop where
  comfort : e.crg.state = .disabled
  zones : ∀ z, (e.zone z).state = zoneNext (t.zone z).limits (Bank.nth readings z.idx) (e.zone z).state
  source : (e.zone p.source).depleted = false
  sink : (e.zone p.sink).full = false
  meter : (e.meter p.meter).countingRate = some rate

/-- The work of such a scan end is that order's alone, whichever channels come first and whether the regulator does. -/
theorem judgeWork_goesOn {e : Engine} {t : Tables} {x : ScanInput} {f : ScanFigures} {c : ChannelNo} {o : Order} {r heat : Nat}
    {rate : Int} (hgo : o.GoesOn r heat) (hrun : e.RunsAlone c o) (hu : e.Undisturbed t x.readings (o.path t) rate)
    (hheat : f.counted (o.path t) = heat) {before : Bank (Option Order) 6} (hb : Bank.nth before c = some o)
    (hl : x.order.channelsFirst.Nodup) : e.judgeWork t x f before
      = e.putOrder c (some (o.wentOn (o.path t) r heat (inSense (o.path t).sense rate))) := by
  generalize hmade : e.putOrder c (some (o.wentOn (o.path t) r heat (inSense (o.path t).sense rate))) = made
  have hmadeRuns : made.RunsAlone c (o.wentOn (o.path t) r heat (inSense (o.path t).sense rate)) := hmade ▸ hrun.putOrder _
  have hwork {l : List ChannelNo} (hl : l.Nodup) : e.channelsWork t f before l = if c ∈ l then made else e := by
    refine foldl_one_of_nodup hl (fun d hd => channelWork_idle _ _ _ _ _ _ (hrun.idle d hd)) ?_
      (fun d hd => channelWork_idle _ _ _ _ _ _ (hmadeRuns.idle d hd))
    rw [hb, channelWork_running t _ f hrun.order hgo.running, ← hmade]
    exact runningWork_goesOn hgo t _ c hheat hu.meter hu.source hu.sink
  have hrest {l : List ChannelNo} (hc : c ∉ l) : made.channelsWork t f before l = made :=
    foldl_keeps _ _ _ fun d hd => channelWork_idle _ _ _ _ _ _ (hmadeRuns.idle d fun k => hc (k ▸ hd))
  have hcomfort (b : Bool) (mean : Option Int) : e.comfortJudge t (Engine.grantScan t) b mean = e
      ∧ made.comfortJudge t (Engine.grantScan t) b mean = made :=
    ⟨comfortJudge_disabled hu.comfort _ _ _ _, comfortJudge_disabled (hmade ▸ hu.comfort) _ _ _ _⟩
  have hzones : e.judgeZones t (Engine.grantScan t) x.readings = e
      ∧ made.judgeZones t (Engine.grantScan t) x.readings = made :=
    ⟨judgeZones_stand _ hu.zones, judgeZones_stand _ (hmade ▸ hu.zones)⟩
  have hall : (allChannels.filter fun d => !x.order.channelsFirst.contains d).Nodup := List.Nodup.filter _ (by decide)
  unfold Engine.judgeWork
  dsimp only
  rw [hwork hl]
  by_cases hc : c ∈ x.order.channelsFirst
  · rw [if_pos hc, hzones.2, (hcomfort _ _).2, hrest (by simp [hc]), (hcomfort _ _).2, ite_self]
  · have hin : c ∈ allChannels.filter fun d => !x.order.channelsFirst.contains d :=
      List.mem_filter.2 ⟨mem_allChannels c, by simp [hc]⟩
    rw [if_neg hc, hzones.1, (hcomfort _ _).1, hwork hall, if_pos hin, (hcomfort _ _).2, ite_self]

/-! ### What comes before the work -/

/-- The orders, the zones, the regulator and the part state are as they were. -/
structure KeepsWork (a b : Engine) : Prop where
  channels : b.channels = a.channels
  zones : b.zones = a.zones
  crg : b.crg = a.crg
  part : b.part = a.part

theorem KeepsWork.refl (e : Engine) : KeepsWork e e := ⟨rfl, rfl, rfl, rfl⟩

theorem KeepsWork.trans {a b c : Engine} (h : KeepsWork a b) (k : KeepsWork b c) : KeepsWork a c :=
  ⟨k.channels.trans h.channels, k.zones.trans h.zones, k.crg.trans h.crg, k.part.trans h.part⟩

theorem KeepsWork.foldl {α : Type} {f : Engine → α → Engine} (h : ∀ e x, KeepsWork e (f e x)) (l : List α) (e : Engine) :
    KeepsWork e (l.foldl f e) :=
  List.foldlRecOn (motive := KeepsWork e) _ _ (.refl e) fun _ hb _ _ => hb.trans (h _ _)

theorem KeepsWork.zone {a b : Engine} (h : KeepsWork a b) (z : Zone) : b.zone z = a.zone z := by
  simp [Engine.zone, h.zones]

theorem keepsWork_equalizeFall (e : Engine) (n : Nat) : KeepsWork e (e.equalizeFall n) := by
  unfold Engine.equalizeFall
  split <;> exact ⟨rfl, rfl, rfl, rfl⟩

theorem keepsWork_readFeedback (e : Engine) (straps : Straps) (f : Feedback) : KeepsWork e (e.readFeedback straps f) := by
  unfold Engine.readFeedback
  refine (KeepsWork.foldl (fun e o => ?_) allOutputs e).trans (KeepsWork.foldl (fun e v => ?_) allValves _)
  · split <;> exact ⟨rfl, rfl, rfl, rfl⟩
  · exact ⟨rfl, rfl, rfl, rfl⟩

theorem keepsWork_handOverStep (e : Engine) : KeepsWork e e.handOverStep := by
  unfold Engine.handOverStep
  split
  · exact .refl _
  · dsimp only
    split <;> exact ⟨rfl, rfl, rfl, rfl⟩

theorem keepsWork_driveOutputs (e : Engine) (straps : Straps) : KeepsWork e (e.driveOutputs straps) := by
  refine (KeepsWork.foldl (fun e o => ?_) allOutputs e).trans (keepsWork_handOverStep _)
  split
  · unfold Engine.driveOutput
    dsimp only
    split
    · exact ⟨rfl, rfl, rfl, rfl⟩
    · exact ⟨rfl, rfl, rfl, rfl⟩
    · split <;> exact ⟨rfl, rfl, rfl, rfl⟩
  · exact .refl _

/-- The verdicts formed anew: two fields of every zone (R138). -/
theorem zone_verdicts (e : Engine) (t : Tables) (r : Bank Reading 6) (z : Zone) : (e.verdicts t r).zone z
    = { e.zone z with depleted := depletedVerdict (t.zone z).limits (Bank.nth r z.idx)
                      full := fullVerdict (t.zone z).limits (Bank.nth r z.idx) } := by
  have step (e : Engine) (y : Zone) : (Engine.formVerdicts t r e y).zone z
      = if y = z then { e.zone z with depleted := depletedVerdict (t.zone z).limits (Bank.nth r z.idx)
                                      full := fullVerdict (t.zone z).limits (Bank.nth r z.idx) } else e.zone z := by
    by_cases hy : y = z
    · subst hy
      rw [if_pos rfl]
      exact Engine.zone_putZone_self _ _ _
    · rw [if_neg hy]
      exact Engine.zone_putZone_ne _ _ hy
  simp only [Engine.verdicts, Zone.all, List.foldl_cons, List.foldl_nil, step]
  cases z <;> simp

theorem verdicts_leaves (e : Engine) (t : Tables) (r : Bank Reading 6) : (e.verdicts t r).channels = e.channels
    ∧ (e.verdicts t r).crg = e.crg ∧ (e.verdicts t r).part = e.part ∧ (e.verdicts t r).meters = e.meters :=
  List.foldlRecOn (motive := fun x : Engine => x.channels = e.channels ∧ x.crg = e.crg ∧ x.part = e.part ∧ x.meters = e.meters)
    _ _ ⟨rfl, rfl, rfl, rfl⟩ fun _ hb _ _ => hb

/-- A meter with nothing to report to the one order there is tells no channel anything (R76). -/
theorem meterReport_silent {e : Engine} {t : Tables} (k : Engine → Engine) {c : ChannelNo} {o : Order} (h : e.RunsAlone c o)
    (hp : o.phase = .running) {m : Meter} {x : MeterReport} (hx : (o.path t).meter = m → x = .none) :
    e.meterReport t k m x = e := by
  refine foldl_keeps _ _ _ fun d _ => ?_
  by_cases hd : d = c
  · subst hd
    simp only [Engine.channelReport, h.order]
    by_cases hm : (o.path t).meter = m
    · rw [if_pos hm, hx hm, hp]
    · rw [if_neg hm]
  · exact channelReport_idle _ _ _ _ (h.idle d hd)

/-- The heats that the meters hand on are those of their judgements (R16). -/
theorem heat_judgeMeters (e : Engine) (t : Tables) (i : Meter → Option MeterInputs) (m : Meter) :
    Bank.nth (e.judgeMeters t (Engine.grantScan t) i).2 m.idx
      = ((e.meter m).judge ⟨t.tuning.coolant, t.tuning.meterHold⟩ (i m)).heat := by
  have step (x : Engine × Bank (Option Int) 4) (m : Meter) : (Engine.judgeMeter t (Engine.grantScan t) i x m).2
      = Bank.put x.2 m.idx ((x.1.meter m).judge ⟨t.tuning.coolant, t.tuning.meterHold⟩ (i m)).heat := rfl
  simp only [Engine.judgeMeters, Meter.all, List.foldl_cons, List.foldl_nil, step, meter_judgeMeter]
  cases m <;> simp [Meter.idx, Bank.nth_put]

theorem judge_valid {x : MeterRec} (h : x.state = .valid) (ct : MeterTuning) (i : MeterInputs) :
    x.judge ct (some i) = x.measured (i.rate ct.coolant) .none := by
  simp [MeterRec.judge, h]

/-- Where the meter of the one RUNNING order stays VALID, the judgement of the meters changes the meters alone. -/
theorem keepsWork_judgeMeters {e : Engine} {t : Tables} {i : Meter → Option MeterInputs} {c : ChannelNo} {o : Order}
    (h : e.RunsAlone c o) (hp : o.phase = .running) (hv : (e.meter (o.path t).meter).state = .valid) {inputs : MeterInputs}
    (hi : i (o.path t).meter = some inputs) : KeepsWork e (e.judgeMeters t (Engine.grantScan t) i).1 := by
  refine (List.foldlRecOn (motive := fun x : Engine × Bank (Option Int) 4 =>
    KeepsWork e x.1 ∧ (x.1.meter (o.path t).meter).state = .valid) _ _ ⟨.refl e, hv⟩ fun x hx m _ => ⟨?_, ?_⟩).1
  · have hsilent : (o.path t).meter = m
        → ((x.1.meter m).judge ⟨t.tuning.coolant, t.tuning.meterHold⟩ (i m)).report = .none := by
      rintro rfl
      rw [hi, judge_valid hx.2]
      rfl
    rw [Engine.judgeMeter_fst, meterReport_silent _ (h.same (b := x.1.putMeter m _) hx.1.channels) hp hsilent]
    exact hx.1.trans ⟨rfl, rfl, rfl, rfl⟩
  · rw [meter_judgeMeter]
    split
    · rw [hi, judge_valid hx.2]
      rfl
    · exact hx.2

/-- A present output's current after the feedback has been read (R115). -/
theorem current_readFeedback (e : Engine) {straps : Straps} (f : Feedback) {o : OutputNo} (h : outputPresent straps o = true) :
    ((e.readFeedback straps f).output o).current = (Bank.nth f.outputs o).current := by
  have outputs (l : List OutputNo) (e : Engine) : ((l.foldl (fun e o => if outputPresent straps o then
        e.putOutput o ((e.output o).read (outputKind o) (Bank.nth f.outputs o)) else e) e).output o).current
      = if o ∈ l then (Bank.nth f.outputs o).current else (e.output o).current := by
    induction l generalizing e with
    | nil => rfl
    | cons p l ih =>
      rw [List.foldl_cons, ih]
      by_cases hl : o ∈ l
      · rw [if_pos hl, if_pos (List.mem_cons_of_mem _ hl)]
      · rw [if_neg hl]
        by_cases hp : p = o
        · subst hp
          rw [if_pos h, if_pos List.mem_cons_self, Engine.output_putOutput_self, OutputRec.read]
          split <;> rfl
        · rw [if_neg (show o ∉ p :: l from fun k => (List.mem_cons.1 k).elim (fun k => hp k.symm) hl)]
          split
          · rw [Engine.output_putOutput_ne _ _ hp]
          · rfl
  have valves (a : Engine) : (allValves.foldl (fun e v => e.putValve v ((e.valve v).scanned (Bank.nth f.valves v))) a).output o
      = a.output o :=
    List.foldlRecOn (motive := fun x : Engine => x.output o = a.output o) _ _ rfl fun _ hb _ _ => hb
  rw [Engine.readFeedback]
  exact (congrArg OutputRec.current (valves _)).trans ((outputs _ _).trans (if_pos (mem_allOutputs o)))

theorem output_putOrder (e : Engine) (c : ChannelNo) (x : Option Order) (o : OutputNo) :
    (e.putOrder c x).output o = e.output o := rfl

/-- Outputs below the bound are judged without effect (R121). -/
theorem overcurrents_below {e : Engine} {t : Tables}
    (h : ∀ o, outputPresent t.straps o = true → (e.output o).current < overcurrentBound) : e.overcurrents t = e := by
  refine foldl_keeps _ _ _ fun o _ => if_neg fun k => ?_
  obtain ⟨hp, hc⟩ := Bool.and_eq_true_iff.1 k
  exact absurd (of_decide_eq_true hc) (Nat.not_le.2 (h o hp))

theorem whenReady_ready {e : Engine} (h : e.part = .ready) (f : Engine → Engine) : whenReady f e = f e := by
  rw [whenReady, h]

theorem keepsWork_whenReady {f : Engine → Engine} (h : ∀ e, KeepsWork e (f e)) (e : Engine) : KeepsWork e (whenReady f e) := by
  unfold whenReady
  split
  · exact h e
  all_goals exact .refl e

theorem whenWithin_separate (f : Engine → Engine) : whenWithin .separate f = fun e => e := rfl

/-- What follows the work of a scan end whose expiries are rows of their own: targets and levels alone (R117, R118). -/
theorem keepsWork_drives (t : Tables) (e : Engine) :
    KeepsWork e (whenReady (fun e => e) (whenReady (fun e => e.driveOutputs t.straps) e)) := by
  have hdrive := keepsWork_whenReady (f := fun e => e.driveOutputs t.straps) (fun e => keepsWork_driveOutputs e t.straps) e
  have hstay := keepsWork_whenReady (f := fun e => e) (fun e => .refl e) (whenReady (fun e => e.driveOutputs t.straps) e)
  exact hdrive.trans hstay

theorem judgeOutputs_separate (t : Tables) (e : Engine) : Engine.judgeOutputs t .separate e = e.overcurrents t := rfl

/-- Outputs below the bound are judged without effect at a scan end whose expiries are rows of their own (R121). -/
theorem judgeOutputs_below {e : Engine} {t : Tables} (hp : e.part = .ready)
    (h : ∀ o, outputPresent t.straps o = true → (e.output o).current < overcurrentBound) :
    whenReady (Engine.judgeOutputs t .separate) e = e := by
  rw [whenReady_ready hp, judgeOutputs_separate, overcurrents_below h]

/-- A meter that is not in HAND-OVER is told nothing of one (R20). -/
theorem Told.same {m : Meter} {a b : Engine} (h : Told m a b) (hs : (a.meter m).state ≠ .handOver) : b.meter m = a.meter m :=
  h.elim id fun hb => hb.trans (tellEnded_of_state_ne hs)

/-! ### The whole scan end -/

/-- A full scan's end of a READY part that leaves a RUNNING order on a path undisturbed: nothing but its own work is
taken, no output overloads, the regulator is DISABLED, no zone changes its state, neither zone of the path stops the
order, and the path's meter is VALID with valid inputs. -/
structure ScanInput.Undisturbing (x : ScanInput) (e : Engine) (t : Tables) (p : PathEntry) (i : MeterInputs) : Prop where
  part : e.part = .ready
  due : x.order.due = .separate
  first : x.order.channelsFirst.Nodup
  currents : ∀ n, (Bank.nth x.feedback.outputs n).current < overcurrentBound
  comfort : e.crg.state = .disabled
  zones : ∀ z, (e.zone z).state = zoneNext (t.zone z).limits (Bank.nth x.readings z.idx) (e.zone z).state
  source : depletedVerdict (t.zone p.source).limits (Bank.nth x.readings p.source.idx) = false
  sink : fullVerdict (t.zone p.sink).limits (Bank.nth x.readings p.sink.idx) = false
  meter : (e.meter p.meter).state = .valid
  inputs : Bank.nth x.meters p.meter.idx = some i

/-- The heat that a meter hands on at a rate, in a path's sense (R16, R60). -/
def MeterRec.heatAt (m : MeterRec) (rate : Int) (sense : Sense) : Nat := inSense sense ((m.residue + rate).tdiv 10)

/-- The engine whose outputs and valves have been read, and the heats, as the work of a full scan's end finds them. -/
def Engine.readForWork (e : Engine) (t : Tables) (x : ScanInput) : Engine × Bank (Option Int) 4 :=
  let q := ((e.verdicts t x.readings).equalizeFall 1).judgeMeters t (Engine.grantScan t) (fun m => Bank.nth x.meters m.idx)
  (q.1.readFeedback t.straps x.feedback, q.2)

/-- The engine after the work of a full scan's end whose expiries are rows of their own. -/
def Engine.workedOn (e : Engine) (t : Tables) (x : ScanInput) : Engine :=
  (e.readForWork t x).1.judgeWork t x ⟨(e.readForWork t x).2, .separate⟩ e.ordersNow

/-- A full scan's end of a READY part at which no output overloads and whose expiries are rows of their own: outputs are
judged without effect, before the work or after it, and driven at the end (R117, R121). -/
theorem fullScanEnd_separate {e : Engine} {t : Tables} {x : ScanInput} (hd : x.order.due = .separate)
    (hread : (e.readForWork t x).1.part = .ready)
    (hbefore : ∀ o, outputPresent t.straps o = true → ((e.readForWork t x).1.output o).current < overcurrentBound)
    (hwork : (e.workedOn t x).part = .ready)
    (hafter : ∀ o, outputPresent t.straps o = true → ((e.workedOn t x).output o).current < overcurrentBound) :
    e.fullScanEnd t x = whenReady (fun e => e) (whenReady (fun e => e.driveOutputs t.straps) (e.workedOn t x)) := by
  unfold Engine.workedOn at hwork hafter ⊢
  unfold Engine.readForWork at hread hbefore hwork hafter ⊢
  unfold Engine.fullScanEnd
  dsimp only at hread hbefore hwork hafter ⊢
  generalize Engine.judgeMeters _ _ _ _ = q at hread hbefore hwork hafter ⊢
  have hq : q.1.part = .ready := (keepsWork_readFeedback q.1 t.straps x.feedback).part.symm.trans hread
  rw [hd]
  simp only [whenWithin_separate]
  rw [whenReady_ready hq]
  cases x.order.faultsFirst with
  | true => simp only [if_true, judgeOutputs_below hread hbefore]
  | false => simp only [Bool.false_eq_true, if_false, judgeOutputs_below hwork hafter]

section
variable {e : Engine} {t : Tables} {x : ScanInput} {c : ChannelNo} {o : Order} {i : MeterInputs}
  (hx : x.Undisturbing e t (o.path t) i)
include hx

/-- The path's meter has been judged VALID from its inputs, and hands on its heat (R15, R16). -/
theorem readForWork_meter : (((e.readForWork t x).1).meter (o.path t).meter).countingRate = some (i.rate t.tuning.coolant)
    ∧ Bank.nth (e.readForWork t x).2 (o.path t).meter.idx
      = some (((e.meter (o.path t).meter).residue + i.rate t.tuning.coolant).tdiv 10) := by
  have := sameMeters_judges
  have hmeter := ((via_verdicts (R := SameMeters) e t x.readings).trans (via_equalizeFall _ 1)).it.meter (o.path t).meter
  have hjudged := meter_judgeMeters ((e.verdicts t x.readings).equalizeFall 1) t (fun m => Bank.nth x.meters m.idx) (o.path t).meter
  have hheat := heat_judgeMeters ((e.verdicts t x.readings).equalizeFall 1) t (fun m => Bank.nth x.meters m.idx) (o.path t).meter
  rw [hmeter, hx.inputs, judge_valid hx.meter] at hjudged hheat
  refine ⟨?_, hheat⟩
  have htold := told_readFeedback (o.path t).meter (((e.verdicts t x.readings).equalizeFall 1).judgeMeters t
    (Engine.grantScan t) (fun m => Bank.nth x.meters m.idx)).1 t.straps x.feedback
  rw [Engine.readForWork, htold.same (by rw [hjudged]; nofun), hjudged]
  rfl

variable (hrun : e.RunsAlone c o) (hp : o.phase = .running)
include hrun hp

/-- What the work of such a scan end finds: the orders, the regulator and the part as they were, and new verdicts. -/
theorem readForWork_keeps : KeepsWork (e.verdicts t x.readings) (e.readForWork t x).1 := by
  have hfall := keepsWork_equalizeFall (e.verdicts t x.readings) 1
  have := sameMeters_judges
  have hmeter := ((via_verdicts (R := SameMeters) e t x.readings).trans (via_equalizeFall _ 1)).it.meter (o.path t).meter
  have hjudge := keepsWork_judgeMeters (t := t) (i := fun m => Bank.nth x.meters m.idx)
    (hrun.same (hfall.channels.trans (verdicts_leaves e t x.readings).1)) hp (by rw [hmeter]; exact hx.meter) hx.inputs
  exact (hfall.trans hjudge).trans (keepsWork_readFeedback _ _ _)

theorem readForWork_undisturbed :
    (e.readForWork t x).1.Undisturbed t x.readings (o.path t) (i.rate t.tuning.coolant) where
  comfort := by
    rw [(readForWork_keeps hx hrun hp).crg, (verdicts_leaves e t x.readings).2.1]
    exact hx.comfort
  zones z := by
    rw [(readForWork_keeps hx hrun hp).zone, zone_verdicts]
    exact hx.zones z
  source := by
    rw [(readForWork_keeps hx hrun hp).zone, zone_verdicts]
    exact hx.source
  sink := by
    rw [(readForWork_keeps hx hrun hp).zone, zone_verdicts]
    exact hx.sink
  meter := (readForWork_meter hx).1

/-- The scan end's work is the order's alone, and what follows it changes no order. -/
theorem fullScanEnd_goesOn {r : Nat}
    (hgo : o.GoesOn r ((e.meter (o.path t).meter).heatAt (i.rate t.tuning.coolant) (o.path t).sense)) :
    (e.fullScanEnd t x).RunsAlone c (o.wentOn (o.path t) r
      ((e.meter (o.path t).meter).heatAt (i.rate t.tuning.coolant) (o.path t).sense)
      (inSense (o.path t).sense (i.rate t.tuning.coolant))) := by
  have hkeeps := readForWork_keeps hx hrun hp
  have hready : (e.readForWork t x).1.part = .ready :=
    hkeeps.part.trans ((verdicts_leaves e t x.readings).2.2.1.trans hx.part)
  have hruns : (e.readForWork t x).1.RunsAlone c o := hrun.same (hkeeps.channels.trans (verdicts_leaves e t x.readings).1)
  have hcurrents (n : OutputNo) (hn : outputPresent t.straps n = true) :
      ((e.readForWork t x).1.output n).current < overcurrentBound := by
    rw [Engine.readForWork, current_readFeedback _ _ hn]
    exact hx.currents n
  have hheat : (ScanFigures.mk (e.readForWork t x).2 .separate).counted (o.path t)
      = (e.meter (o.path t).meter).heatAt (i.rate t.tuning.coolant) (o.path t).sense := by
    simp only [ScanFigures.counted, (readForWork_meter hx).2]
    rfl
  have hbefore : Bank.nth e.ordersNow c = some o := by
    simpa [Engine.ordersNow, Bank.nth, Engine.order, Engine.channel] using hrun.order
  have hwork : e.workedOn t x = _ :=
    judgeWork_goesOn hgo hruns (readForWork_undisturbed hx hrun hp) hheat hbefore hx.first
  have hend := fullScanEnd_separate hx.due hready hcurrents
    (by rw [hwork, Engine.putOrder_part, hready]) (fun n hn => by rw [hwork, output_putOrder]; exact hcurrents n hn)
  rw [hend, hwork]
  exact (hruns.putOrder _).same (keepsWork_drives t _).channels

end

/-- What stands after a full scan's end whose expiries are rows of their own has the orders that its work leaves. -/
theorem order_endScan (s : State) (f : Feedback) {ord : ScanOrder} (hd : ord.due = .separate) (c : ChannelNo) :
    (s.endScan .full f ord).eng.order c = (s.eng.fullScanEnd s.tab (s.scanInput f ord)).order c := by
  rw [endScan_full s (show ScanKind.full ≠ .parked by decide), hd]
  dsimp only [State.afterFullScan, State.parkTick, Engine.order, Engine.channel]
  split <;> rfl

/-- Settles O41: the scan end leaves the order undisturbed, so that its work is the order's count and regulation. -/
theorem runningCounts : Obligations.RunningCounts := by
  intro s f ord c o r i hrun hscan hpart hdue hfirst hcur hcomfort hzones hidle ho hp p hdep hfull hv hi rate heat hr hlt
    hheld hlead hcont hnext htime moved
  have hx : (s.scanInput f ord).Undisturbing s.eng s.tab (o.path s.tab) i :=
    ⟨hpart, hdue, hfirst, hcur, hcomfort, hzones, hdep, hfull, hv, (nth_scanInput_meters s f ord _).trans hi⟩
  have hgo : o.GoesOn r ((s.eng.meter (o.path s.tab).meter).heatAt (i.rate s.tab.tuning.coolant) (o.path s.tab).sense) :=
    ⟨hp, hr, hlt, hheld, hlead, by simp [Copy.chains, hcont, hnext], htime⟩
  have hend := fullScanEnd_goesOn hx ⟨ho, hidle⟩ hp hgo
  exact ⟨_, exec_scanEnd hrun hscan f ord, fun d hd => (order_endScan s f hdue d).trans (hend.idle d hd),
    (order_endScan s f hdue c).trans hend.order⟩

end Sys2Proof.Machine
end

section
/-! O46, O47, O2: an output's fault with the revocation it brings, the ends of an equalize, of a test and of a hand-over, and
a step on an empty queue. -/

namespace Sys2Proof.Machine

open Sys2Proof

/-! ### The end of a hand-over (R125, R126) -/

theorem meterHandOverEnded_ost (e : Engine) (r : Role) : (e.meterHandOverEnded r).ost = e.ost := by
  unfold Engine.meterHandOverEnded
  split <;> rfl

/-- The end of a hand-over at a meter: the one of the role's loop is told (R20). -/
theorem meter_meterHandOverEnded (e : Engine) (r : Role) (m : Meter) : (e.meterHandOverEnded r).meter m
    = if r.loopMeter = some m then (e.meter m).tellEnded else e.meter m := by
  unfold Engine.meterHandOverEnded
  cases hr : r.loopMeter with
  | none => rfl
  | some k =>
    by_cases hk : k = m
    · subst hk
      rw [if_pos rfl]
      exact Engine.meter_putMeter_self _ _ _
    · rw [if_neg fun h => hk (Option.some.inj h)]
      exact Engine.meter_putMeter_ne _ _ hk

theorem tellEnded_eq (x : MeterRec) : x.tellEnded = if x.state = .handOver then { x with handOverEnded := true } else x := by
  by_cases h : x.state = .handOver
  · rw [if_pos h, tellEnded_of_handOver h]
  · rw [if_neg h, tellEnded_of_state_ne h]

theorem endHandOver_some {e : Engine} {h : HandOver} (hh : e.ost.handOver = some h) :
    e.endHandOver = { e with ost := { e.ost with handOver := none } }.meterHandOverEnded h.role := by
  simp only [Engine.endHandOver, hh]

/-- The end of a hand-over changes nothing of the output stage but the hand-over. -/
theorem endHandOver_ost (e : Engine) : e.endHandOver.ost = { e.ost with handOver := none } := by
  cases hh : e.ost.handOver with
  | none =>
    have hkeep : e.endHandOver = e := by simp only [Engine.endHandOver, hh]
    rw [hkeep, ← hh]
  | some h => rw [endHandOver_some hh, meterHandOverEnded_ost]

/-- A fault changes at most the hand-over's record in the output stage (R126). -/
theorem handOverFault_ost (e : Engine) (o : OutputNo) :
    ∃ x, (e.handOverFault o).ost = { e.ost with handOver := x } ∧ (e.ost.handOver = none → x = none) := by
  unfold Engine.handOverFault
  split
  · exact ⟨e.ost.handOver, rfl, id⟩
  · rename_i h hh
    split
    · exact ⟨none, endHandOver_ost e, fun _ => rfl⟩
    · split
      · exact ⟨_, rfl, fun k => absurd (hh.symm.trans k) nofun⟩
      · exact ⟨e.ost.handOver, rfl, id⟩

/-! ### The fault of an output (R122) -/

/-- The fault's record in the output stage, before the holders of the role are revoked. -/
def Engine.faultEntered (e : Engine) (o : OutputNo) (k : OutputFault) : Engine :=
  (e.putOutput o ((e.output o).faultedWith k)).handOverFault o

theorem output_faultEntered (e : Engine) (o p : OutputNo) (k : OutputFault) : (e.faultEntered o k).output p
    = (e.putOutput o ((e.output o).faultedWith k)).output p := by
  obtain ⟨x, hx, -⟩ := handOverFault_ost (e.putOutput o ((e.output o).faultedWith k)) o
  rw [Engine.output, Engine.faultEntered, hx]
  rfl

theorem faultEntered_roleMap (e : Engine) (o : OutputNo) (k : OutputFault) :
    (e.faultEntered o k).ost.roleMap = e.ost.roleMap := by
  obtain ⟨x, hx, -⟩ := handOverFault_ost (e.putOutput o ((e.output o).faultedWith k)) o
  rw [Engine.faultEntered, hx]
  rfl

theorem faultEntered_handOver {e : Engine} (o : OutputNo) (k : OutputFault) (h : e.ost.handOver = none) :
    (e.faultEntered o k).ost.handOver = none := by
  obtain ⟨x, hx, hn⟩ := handOverFault_ost (e.putOutput o ((e.output o).faultedWith k)) o
  rw [Engine.faultEntered, hx]
  exact hn h

/-- The engine of a fault with the holders of the output's role revoked, before the report. -/
def Engine.faultRevoked (e : Engine) (t : Tables) (o : OutputNo) (k : OutputFault) : Engine :=
  match e.ost.served o with
  | none => e.faultEntered o k
  | some r => (e.faultEntered o k).revokeHolders t r

theorem served_of_roleMap {a b : OutputStage} (h : b.roleMap = a.roleMap) (o : OutputNo) : b.served o = a.served o := by
  rw [OutputStage.served, OutputStage.served, h]

/-- A served role is mapped to the output that serves it (R116). -/
theorem mapped_of_served {e : Engine} {o : OutputNo} {r : Role} (h : e.ost.served o = some r) : e.mapped r = o := by
  unfold OutputStage.served at h
  exact of_decide_eq_true (List.find?_some h :)

theorem outputFault_eq (e : Engine) (t : Tables) (o : OutputNo) (k : OutputFault) :
    e.outputFault t o k = (e.faultRevoked t o k).hand ((e.faultRevoked t o k).outputReport o) := by
  have hs : (e.faultEntered o k).ost.served o = e.ost.served o := served_of_roleMap (faultEntered_roleMap e o k) o
  unfold Engine.faultRevoked
  rw [← hs]
  rfl

/-- The revocation that a fault brings leaves the output stage's outputs and map as the fault has left them. -/
theorem grants_faultRevoked (e : Engine) (t : Tables) (o : OutputNo) (k : OutputFault) :
    Grants (e.faultEntered o k) (e.faultRevoked t o k) := by
  unfold Engine.faultRevoked
  split
  · exact grants_base.refl _
  · exact grants_revokeHolders _ _ _

theorem Grants.output {a b : Engine} (h : Grants a b) (o : OutputNo) : b.output o = a.output o := by
  rw [Engine.output, Engine.output, h.outputs]

theorem grants_outputFault (e : Engine) (t : Tables) (o : OutputNo) (k : OutputFault) :
    Grants (e.faultEntered o k) (e.outputFault t o k) := by
  rw [outputFault_eq]
  exact grants_base.trans (grants_faultRevoked e t o k) (grants_base.hand _ _)

theorem output_outputFault_self (e : Engine) (t : Tables) (o : OutputNo) (k : OutputFault) :
    (e.outputFault t o k).output o = (e.output o).faultedWith k := by
  rw [(grants_outputFault e t o k).output, output_faultEntered, Engine.output_putOutput_self]

theorem output_outputFault_ne (e : Engine) (t : Tables) {o p : OutputNo} (k : OutputFault) (h : o ≠ p) :
    (e.outputFault t o k).output p = e.output p := by
  rw [(grants_outputFault e t o k).output, output_faultEntered, Engine.output_putOutput_ne _ _ h]

/-- A report that is handed stands in the queue with its content. -/
theorem mem_handReport (q : List Report) (b : ReportBody) : ∃ n, ⟨b, n⟩ ∈ handReport q b := by
  unfold handReport
  split
  · rename_i h
    obtain ⟨r, hr, hk⟩ := List.any_eq_true.1 h
    exact ⟨bumpCount r.count, List.mem_map.2 ⟨r, hr, if_pos (of_decide_eq_true hk)⟩⟩
  · exact ⟨0, List.mem_append_right _ (List.mem_singleton_self _)⟩

theorem reports_outputFault (e : Engine) (t : Tables) (o : OutputNo) (k : OutputFault) :
    ∃ n, ⟨.output ⟨o, e.ost.served o, some k, .faulted⟩, n⟩ ∈ (e.outputFault t o k).reports := by
  have g := grants_faultRevoked e t o k
  have hs : (e.faultRevoked t o k).ost.served o = e.ost.served o :=
    served_of_roleMap (g.roleMap.trans (faultEntered_roleMap e o k)) o
  have ho : (e.faultRevoked t o k).output o = (e.output o).faultedWith k := by
    rw [g.output, output_faultEntered, Engine.output_putOutput_self]
  have hreport : (e.faultRevoked t o k).outputReport o = .output ⟨o, e.ost.served o, some k, .faulted⟩ := by
    simp only [Engine.outputReport, hs, ho, OutputRec.faultedWith]
  rw [outputFault_eq, Engine.hand_reports, hreport]
  exact mem_handReport _ _

/-! ### What a revocation leaves of the grants (R73, R110) -/

theorem mapOrder_mar (e : Engine) (c : ChannelNo) (f : Order → Order) : (e.mapOrder c f).mar = e.mar := by
  unfold Engine.mapOrder
  split <;> rfl

theorem regulatorTakes_mar (e : Engine) (w : Owner) (g : Ending) : (e.regulatorTakes w g).mar = e.mar := by
  unfold Engine.regulatorTakes
  split <;> rfl

theorem closeOrder_mar (e : Engine) (c : ChannelNo) (o : Order) (g : Ending) : (e.closeOrder c o g).mar = e.mar := by
  unfold Engine.closeOrder
  split
  · rfl
  all_goals split <;> rfl

/-! An order that starts or resumes within a scan under way makes no scan of its own (R99), so it grants nothing. -/

theorem startReserve_grants (e : Engine) (t : Tables) (z : Zone) (r : Reserve) :
    (e.startReserve t id z r).mar.grants = e.mar.grants := by
  have notice : (e.noticeReserve r.channel).mar = e.mar := by
    unfold Engine.noticeReserve
    split <;> rfl
  unfold Engine.startReserve
  split
  · rw [Engine.setOutcome_mar, notice]
  · rw [Engine.takeOrder, Engine.prefetch, mapOrder_mar, ← notice]
    rfl

theorem servePending_grants (e : Engine) (t : Tables) (c : ChannelNo) : (e.servePending t id c).mar.grants = e.mar.grants := by
  have zone (e : Engine) (z : Zone) : (Engine.serveZone t id c e z).mar.grants = e.mar.grants := by
    unfold Engine.serveZone
    split
    · rfl
    · split
      · exact startReserve_grants _ _ _ _
      · rfl
  unfold Engine.servePending
  split
  · exact List.foldlRecOn (motive := fun x : Engine => x.mar.grants = e.mar.grants) _ _ rfl
      fun x hx z _ => (zone x z).trans hx
  all_goals rfl

theorem finish_grants (e : Engine) (t : Tables) (c : ChannelNo) (o : Order) (g : Ending) :
    (e.finish t id c o g).mar.grants = e.mar.grants := by
  rw [Engine.finish, servePending_grants, closeOrder_mar]

theorem afterRunDown_grants (e : Engine) (t : Tables) (c : ChannelNo) (o : Order) (r : RunDown) :
    (e.afterRunDown t id c o r).mar.grants = e.mar.grants := by
  unfold Engine.afterRunDown
  split
  · exact finish_grants _ _ _ _ _
  · unfold Engine.resume
    split
    · rfl
    · split
      · rw [finish_grants, regulatorTakes_mar]
      · rw [Engine.prefetch, mapOrder_mar]
        rfl

/-- A revocation takes the channel's set from the grants and adds none (R73). -/
theorem revoke_grants (e : Engine) (t : Tables) (c : ChannelNo) :
    (e.revoke t c).mar.grants = e.mar.grants.filter (fun g => decide (g.channel ≠ c)) := by
  unfold Engine.revoke
  split
  · rfl
  · split
    · rfl
    · rfl
    · rfl
    · exact afterRunDown_grants _ _ _ _ _

theorem mem_grants_revokes {t : Tables} {l : List ClaimSet} {e : Engine} {g : ClaimSet}
    (h : g ∈ (l.foldl (fun e x => e.revoke t x.channel) e).mar.grants) : g ∈ e.mar.grants ∧ g ∉ l := by
  induction l generalizing e with
  | nil => exact ⟨h, List.not_mem_nil⟩
  | cons x l ih =>
    obtain ⟨hg, hl⟩ := ih h
    rw [revoke_grants, List.mem_filter, decide_eq_true_eq] at hg
    exact ⟨hg.1, fun k => (List.mem_cons.1 k).elim (fun k => hg.2 (congrArg _ k)) hl⟩

/-! ### No grant on a role whose output is out of service (R95, R110) -/

/-- No set holds a role, and the role's output lets none be granted it. -/
structure Barred (r : Role) (e : Engine) : Prop where
  output : (e.output (e.mapped r)).state ≠ .inService
  free : ∀ g ∈ e.mar.grants, g.names r = false

theorem Barred.grants {r : Role} {a b : Engine} (h : Barred r a) (g : Grants a b) (hb : ∀ x ∈ b.mar.grants, x.names r = false) :
    Barred r b where
  output := by
    rw [g.output, Engine.mapped, g.roleMap]
    exact h.output
  free := hb

theorem barred_revoke {r : Role} {e : Engine} (h : Barred r e) (t : Tables) (c : ChannelNo) : Barred r (e.revoke t c) := by
  have := grants_base
  refine h.grants (via_revoke e t c).it fun x hx => h.free x ?_
  rw [revoke_grants] at hx
  exact (List.mem_filter.1 hx).1

/-- A grantable set names no role whose output is out of service. -/
theorem Barred.unnamed {r : Role} {e : Engine} (h : Barred r e) {l : List ClaimSet} {s : ClaimSet} (hs : e.unmet l s = none) :
    s.names r = false := by
  refine Bool.eq_false_iff.2 fun hn => ?_
  obtain ⟨x, hx, hr⟩ := List.any_eq_true.1 hn
  obtain ⟨hroles, -⟩ := (unmet_none e l s).1 hs
  obtain ⟨hserves, -⟩ := (roleUnmet_none e l s.mode x.1 x.2).1 (hroles x hx)
  rw [of_decide_eq_true hr] at hserves
  exact h.output hserves

theorem barred_settle {r : Role} {e : Engine} (h : Barred r e) (t : Tables) (s : ClaimSet) : Barred r (e.settle t s) := by
  have := grants_base
  refine h.grants (via_settle e t s).it ?_
  cases hu : e.unmet e.mar.grants s with
  | none =>
    rw [settle_grants hu, grant_mar]
    intro x hx
    rcases List.mem_append.1 hx with hx | hx
    · exact h.free x hx
    · rw [List.mem_singleton.1 hx]
      exact h.unnamed hu
  | some w =>
    cases hm : e.onlyMode e.mar.grants s with
    | true =>
      rw [settle_changes hu hm, Engine.beginModeChange]
      split <;> exact h.free
    | false =>
      rw [settle_waits hu hm]
      exact h.free

theorem barred_preempt {r : Role} (t : Tables) (s : ClaimSet) (n : Nat) {e : Engine} (h : Barred r e) :
    Barred r (Engine.preempt t s n e) := by
  induction n generalizing e with
  | zero => exact h
  | succ n ih =>
    unfold Engine.preempt
    split
    · exact h
    · split
      · exact h
      · exact ih (barred_revoke h _ _)

theorem barred_judgeSet {r : Role} {e : Engine} (h : Barred r e) (t : Tables) (l : List ClaimSet) (s : ClaimSet) :
    Barred r (e.judgeSet t l s) := by
  unfold Engine.judgeSet
  split
  · exact ⟨h.output, h.free⟩
  · split
    · exact barred_settle (barred_preempt t s 6 h) t s
    · exact barred_settle h t s

theorem barred_grantScan {r : Role} {e : Engine} (h : Barred r e) (t : Tables) : Barred r (Engine.grantScan t e) := by
  have walk (n : Nat) (j : List ChannelNo) (l : List ClaimSet) : ∀ {e}, Barred r e → Barred r (Engine.walk t n j l e) := by
    induction n generalizing j l with
    | zero => exact id
    | succ n ih =>
      intro e h
      unfold Engine.walk
      split
      · exact h
      · exact ih _ _ (barred_judgeSet h _ _ _)
  exact walk _ _ _ h

/-- The holders of a role whose output is out of service lose it, and the grant scan that follows gives it to none (R110). -/
theorem barred_revokeHolders {r : Role} {e : Engine} (h : (e.output (e.mapped r)).state ≠ .inService) (t : Tables) :
    Barred r (e.revokeHolders t r) := by
  have := grants_base
  have g := (Via.foldl (R := Grants) (fun e (x : ClaimSet) => e.revoke t x.channel) (fun e x => via_revoke e t x.channel)
    (holdersOf e.mar.grants r).reverse e).it
  refine barred_grantScan ⟨?_, fun x hx => ?_⟩ t
  · rw [g.output, Engine.mapped, g.roleMap]
    exact h
  · obtain ⟨hmem, hnot⟩ := mem_grants_revokes hx
    exact Bool.eq_false_iff.2 fun hn => hnot (List.mem_reverse.2 (List.mem_filter.2 ⟨hmem, hn⟩))

/-- A fault leaves no holder on the role that the output serves (R110, R122). -/
theorem outputFault_free (e : Engine) (t : Tables) {o : OutputNo} (k : OutputFault) {r : Role} (h : e.ost.served o = some r) :
    ∀ g ∈ (e.outputFault t o k).mar.grants, g.names r = false := by
  have hm : (e.faultEntered o k).mapped r = o := by
    rw [Engine.mapped, faultEntered_roleMap]
    exact mapped_of_served h
  have hb : Barred r ((e.faultEntered o k).revokeHolders t r) := by
    refine barred_revokeHolders ?_ t
    rw [hm, output_faultEntered, Engine.output_putOutput_self]
    nofun
  rw [outputFault_eq, Engine.hand_mar, Engine.faultRevoked, h]
  exact hb.free

/-- Settles O46: both rows are the output's fault, whose effects hold of every kind. -/
theorem outputFaults : Obligations.OutputFaults := by
  intro s o hrun hready hserves faults
  have fault {c : Instr} {k : OutputFault} (hc : exec c s = .next (s.putEngine (s.eng.outputFault s.tab o k))) : faults c k :=
    ⟨_, hc, output_outputFault_self _ _ _ _, fun x hx => output_outputFault_ne _ _ _ (Ne.symm hx),
      fun r hr => outputFault_free _ _ _ hr, reports_outputFault _ _ _ _⟩
  exact ⟨fun hopen => fault (onReady_gives hrun hready (if_pos ⟨hserves, hopen⟩)),
    fun hopen hstall => fault (onReady_gives hrun hready (if_pos ⟨hserves, hopen, hstall⟩))⟩

/-! ### The ends of an equalize, of a test, of a hand-over (O47) -/

theorem equalizeIfOver_over {e : Engine} {m : Circuit} (h : e.mar.comp.condition = .equalizing m 0) (t : Tables) :
    Engine.equalizeIfOver t e = Engine.grantScan t { e with
      mar := { e.mar with comp := ⟨some m, .steady⟩ }, ost := { e.ost with circuit := m } } := by
  simp [Engine.equalizeIfOver, Engine.equalizeOver, h, Engine.equalizeEnd, Engine.setCircuit]

theorem testFails_eq (e : Engine) (o : OutputNo) (k : OutputFault) : e.testFails o k
    = (e.putOutput o ((e.output o).faultedWith k)).hand (.output ⟨o, e.ost.served o, some k, .faulted⟩) := by
  have hserved : (e.putOutput o ((e.output o).faultedWith k)).ost.served o = e.ost.served o := served_of_roleMap rfl o
  unfold Engine.testFails Engine.outputReport
  dsimp only
  rw [hserved, Engine.output_putOutput_self]
  rfl

theorem output_testPasses (e : Engine) (t : Tables) (o : OutputNo) : (e.testPasses t o).output o = (e.output o).passed := by
  have g := grants_grantScan t (e.putOutput o (e.output o).passed)
  have hpassed : (Engine.grantScan t (e.putOutput o (e.output o).passed)).output o = (e.output o).passed :=
    (g.output o).trans (Engine.output_putOutput_self _ _ _)
  unfold Engine.testPasses
  dsimp only
  split <;> exact hpassed

/-- A test whose timer has run out is judged on its readings (R127). -/
theorem testEnds_judged {e : Engine} {o : OutputNo} (hs : (e.output o).state = .testing)
    (ht : (e.output o).testTimer = some 0) (t : Tables) : e.testEnds t o
      = if (e.output o).current < 50 then e.testFails o .openLoad
        else if (outputKind o).turns ∧ (e.output o).speed < 150 then e.testFails o .stall
        else e.testPasses t o :=
  if_pos ⟨hs, ht⟩

/-- Settles O47, one timer after the other. -/
theorem moverTimers : Obligations.MoverTimers := by
  intro s hrun
  refine ⟨fun m hm => onEngine_gives hrun (equalizeIfOver_over hm s.tab), ?test, fun h hready hh h0 => ?handOver⟩
  case test =>
    intro o hready hs ht x fails
    have hjudged := testEnds_judged hs ht s.tab
    have judgedFails {k : OutputFault} (h : s.eng.testEnds s.tab o = s.eng.testFails o k) : fails k :=
      onReady_gives hrun hready (h.trans (testFails_eq s.eng o k))
    refine ⟨fun hc => judgedFails ?_, fun hc hk hv => judgedFails ?_, fun hc hv => ⟨_, onReady_gives hrun hready rfl, ?_⟩⟩
    · rw [hjudged, if_pos hc]
    · rw [hjudged, if_neg (Nat.not_lt.2 hc), if_pos ⟨hk, hv⟩]
    · have hturns : ¬ ((outputKind o).turns = true ∧ (s.eng.output o).speed < 150) := fun k =>
        hv.elim (fun h => Bool.false_ne_true (h.symm.trans k.1)) (fun h => Nat.not_lt.2 h k.2)
      rw [hjudged, if_neg (Nat.not_lt.2 hc), if_neg hturns]
      exact output_testPasses _ _ _
  case handOver =>
    have hends : s.eng.handOverEnds = s.eng.endHandOver := if_pos (by simp [hh, h0])
    refine ⟨_, onReady_gives hrun hready hends, endHandOver_ost s.eng, fun m => ?_⟩
    rw [State.putEngine_eng, endHandOver_some hh, meter_meterHandOverEnded, tellEnded_eq]
    by_cases hm : h.role.loopMeter = some m <;> simp only [hm, true_and, false_and, if_true, if_false] <;> rfl

/-! ### A step on an empty queue (O2) -/

theorem step_empty {s : State} (h : s.pending = []) : step s = .next s.idle := by
  rw [step, h]

/-- Outside a running PARKED part the clock of an empty queue counts nothing (log 6). -/
theorem idle_rests {s : State} (h : s.run ≠ .running ∨ s.eng.part ≠ .parked) : s.idle = s := by
  unfold State.idle State.whileRunning State.parkedTick
  split
  · rename_i hrun
    split
    · rename_i hpart
      exact absurd hpart (h.resolve_left (not_not.2 hrun))
    all_goals rfl
  all_goals rfl

theorem idle_parked {s : State} (hrun : s.run = .running) (hpart : s.eng.part = .parked) : s.idle
    = { s with eng := s.eng.parkedClock s.tab 1, sbe := { s.sbe with parkedTime := min 100 (s.sbe.parkedTime + 1) } } := by
  simp only [State.idle, State.whileRunning, hrun, State.parkedTick, hpart]

/-- Settles O2: the clock of a PARKED part by the condition of the compressor, as `parkedClock` has it. -/
theorem idleStep : Obligations.IdleStep := by
  intro s hempty
  rw [step_empty hempty]
  refine ⟨fun h => congrArg _ (idle_rests h), ?_⟩
  intro hrun hpart after
  rw [idle_parked hrun hpart]
  refine ⟨fun h => ?_, fun m n h hn => ?_, fun m n h hn => ?_⟩
  · rw [parkedClock_steady h]
  · rw [parkedClock_running h hn]
  · rw [parkedClock_over h hn]

end Sys2Proof.Machine
end

section
/-! O42: the target and the ramp that a full scan's end gives an output. -/

namespace Sys2Proof.Machine

open Sys2Proof

/-! ### What an event leaves of an output it does not reach -/

/-- An output's record is as it was, and neither a hand-over begins nor the part leaves READY. -/
structure LeavesOutput (o : OutputNo) (a b : Engine) : Prop where
  output : b.output o = a.output o
  handOver : a.ost.handOver = none → b.ost.handOver = none
  part : a.part = .ready → b.part = .ready

theorem LeavesOutput.refl (o : OutputNo) (e : Engine) : LeavesOutput o e e := ⟨rfl, id, id⟩

theorem LeavesOutput.trans {o : OutputNo} {a b c : Engine} (h : LeavesOutput o a b) (k : LeavesOutput o b c) :
    LeavesOutput o a c :=
  ⟨k.output.trans h.output, fun x => k.handOver (h.handOver x), fun x => k.part (h.part x)⟩

theorem leavesOutput_judges (o : OutputNo) : Judges (LeavesOutput o) where
  refl := .refl o
  trans := .trans
  putChannel _ _ _ := ⟨rfl, id, id⟩
  putMar _ _ := ⟨rfl, id, id⟩
  putValve _ _ _ := ⟨rfl, id, id⟩
  setCircuit _ _ := ⟨rfl, id, id⟩
  putRegState _ _ := ⟨rfl, id, id⟩
  hand _ _ := ⟨rfl, id, id⟩
  setOutcome _ _ _ := ⟨rfl, id, id⟩
  clearPending _ _ := ⟨rfl, id, id⟩
  setPending _ _ := ⟨rfl, id, id⟩
  putZone _ _ _ := ⟨rfl, id, id⟩
  wakeUp e := ⟨by rw [Engine.output, Engine.wakeUp_ost]; rfl, by rw [Engine.wakeUp_ost]; exact id,
    fun h => by rw [Engine.wakeUp_ready e h]; exact h⟩

theorem leavesOutput_meters (o : OutputNo) : Meters (LeavesOutput o) where
  toBase := (leavesOutput_judges o).toBase
  putMeter _ _ _ := ⟨rfl, id, id⟩

theorem leavesOutput_putOutput (e : Engine) {o p : OutputNo} (x : OutputRec) (h : p ≠ o) :
    LeavesOutput o e (e.putOutput p x) :=
  ⟨Engine.output_putOutput_ne e x h, id, id⟩

/-- The fault of another output. -/
theorem leavesOutput_outputFault (e : Engine) (t : Tables) {o p : OutputNo} (k : OutputFault) (h : p ≠ o) :
    LeavesOutput o e (e.outputFault t p k) where
  output := output_outputFault_ne e t k h
  handOver hn := (grants_outputFault e t p k).handOver.trans (faultEntered_handOver p k hn)
  part hp := by
    have := flow_drives
    exact ((via_outputFault (R := Flow) e t p k).it).ready hp

/-- The judgement of OVERCURRENT leaves an output that is below the bound (R121). -/
theorem leavesOutput_overcurrents {e : Engine} (t : Tables) {o : OutputNo} (h : (e.output o).current < overcurrentBound) :
    LeavesOutput o e (e.overcurrents t) := by
  refine List.foldlRecOn (motive := LeavesOutput o e) _ _ (.refl o e) fun a ha p _ => ha.trans ?_
  rw [← ha.output] at h
  unfold Engine.judgeOvercurrent
  dsimp only
  split
  · rename_i hover
    have hp : p ≠ o := by
      rintro rfl
      exact absurd (of_decide_eq_true (Bool.and_eq_true_iff.1 hover).2) (Nat.not_le.2 h)
    split
    · exact leavesOutput_outputFault a t _ hp
    · exact (leavesOutput_putOutput a _ hp).trans ⟨rfl, id, id⟩
    · exact .refl o a
  · exact .refl o a

/-! ### A fold that reaches an output once -/

/-- A fold over the outputs whose steps at the others keep a relation: that relation, the output's own step, and the
relation again. -/
theorem foldl_outputs_once {R : Engine → Engine → Prop} (hrefl : ∀ e, R e e) (htrans : ∀ {a b c}, R a b → R b c → R a c)
    {f : Engine → OutputNo → Engine} {o : OutputNo} (h : ∀ e p, p ≠ o → R e (f e p)) (e : Engine) :
    ∃ a, R e a ∧ R (f a o) (allOutputs.foldl f e) := by
  have others (l : List OutputNo) (hl : o ∉ l) (e : Engine) : R e (l.foldl f e) :=
    List.foldlRecOn (motive := R e) _ _ (hrefl e) fun a ha p hp => htrans ha (h a p fun k => hl (k ▸ hp))
  have place : ∀ o : OutputNo, ∃ i : Fin 9, allOutputs = allOutputs.take i ++ o :: allOutputs.drop (i + 1)
      ∧ o ∉ allOutputs.take i ∧ o ∉ allOutputs.drop (i + 1) := by decide
  obtain ⟨i, hi, hbefore, hafter⟩ := place o
  rw [hi, List.foldl_append, List.foldl_cons]
  exact ⟨_, others _ hbefore e, others _ hafter _⟩

/-- A present output after the feedback has been read (R115, R121). -/
theorem output_readFeedback (e : Engine) {straps : Straps} (f : Feedback) {o : OutputNo} (h : outputPresent straps o = true) :
    (e.readFeedback straps f).output o = (e.output o).read (outputKind o) (Bank.nth f.outputs o) := by
  obtain ⟨a, ha, hb⟩ := foldl_outputs_once (R := LeavesOutput o) (.refl o) .trans
    (f := fun e p => if outputPresent straps p then e.putOutput p ((e.output p).read (outputKind p) (Bank.nth f.outputs p)) else e)
    (o := o) (fun e p hp => by
      split
      · exact leavesOutput_putOutput e _ hp
      · exact .refl o e) e
  have := (leavesOutput_judges o).toBase
  have hvalves (b : Engine) : (allValves.foldl (fun e v => e.putValve v ((e.valve v).scanned (Bank.nth f.valves v))) b).output o
      = b.output o := (Via.foldl (R := LeavesOutput o) _ (fun _ _ => via_putValve _ _ _) allValves b).it.output
  rw [Engine.readFeedback, hvalves, hb.output, if_pos h, Engine.output_putOutput_self, ha.output]

theorem readFeedback_handOver (e : Engine) (straps : Straps) (f : Feedback) :
    (e.readFeedback straps f).ost.handOver = e.ost.handOver := by
  unfold Engine.readFeedback
  refine List.foldlRecOn (motive := fun x : Engine => x.ost.handOver = e.ost.handOver) _ _ ?_ fun _ hb _ _ => hb
  refine List.foldlRecOn (motive := fun x : Engine => x.ost.handOver = e.ost.handOver) _ _ rfl fun _ hb _ _ => ?_
  split <;> exact hb

/-! ### Targets and levels (R117, R118) -/

/-- Nothing but targets and levels is changed, and those of one output are as they were. -/
structure DrivesOthers (o : OutputNo) (a b : Engine) : Prop where
  output : b.output o = a.output o
  roleMap : b.ost.roleMap = a.ost.roleMap
  handOver : b.ost.handOver = a.ost.handOver
  channels : b.channels = a.channels
  mar : b.mar = a.mar

theorem DrivesOthers.refl (o : OutputNo) (e : Engine) : DrivesOthers o e e := ⟨rfl, rfl, rfl, rfl, rfl⟩

theorem DrivesOthers.trans {o : OutputNo} {a b c : Engine} (h : DrivesOthers o a b) (k : DrivesOthers o b c) :
    DrivesOthers o a c :=
  ⟨k.output.trans h.output, k.roleMap.trans h.roleMap, k.handOver.trans h.handOver, k.channels.trans h.channels,
    k.mar.trans h.mar⟩

theorem demandsOn_congr {a b : Engine} (hm : b.mar = a.mar) (hc : b.channels = a.channels) (r : Role) :
    b.demandsOn r = a.demandsOn r := by
  have horder (c : ChannelNo) : b.order c = a.order c := by rw [Engine.order, Engine.order, Engine.channel, hc]; rfl
  simp only [Engine.demandsOn, hm, horder]

theorem DrivesOthers.targetOf {o : OutputNo} {a b : Engine} (h : DrivesOthers o a b) : b.targetOf o = a.targetOf o := by
  simp only [Engine.targetOf, h.output, served_of_roleMap h.roleMap, demandsOn_congr h.mar h.channels]

theorem targetOf_served {e : Engine} {o : OutputNo} {r : Role} (hs : (e.output o).state = .inService)
    (hr : e.ost.served o = some r) : e.targetOf o = combine r (e.demandsOn r) := by
  simp only [Engine.targetOf, hs, hr]

theorem targetOf_unserved {e : Engine} {o : OutputNo} (hr : e.ost.served o = none) : e.targetOf o = 0 := by
  unfold Engine.targetOf
  rw [hr]
  cases (e.output o).state <;> rfl

/-- Driving one output sets its record alone (R117, R118). -/
theorem driveOutput_eq (e : Engine) (o : OutputNo) : ∃ x, e.driveOutput o = e.putOutput o x := by
  unfold Engine.driveOutput
  dsimp only
  split
  · exact ⟨_, rfl⟩
  · exact ⟨_, rfl⟩
  · split <;> exact ⟨_, rfl⟩

theorem drivesOthers_driveOutput (e : Engine) {o p : OutputNo} (h : p ≠ o) : DrivesOthers o e (e.driveOutput p) := by
  obtain ⟨x, hx⟩ := driveOutput_eq e p
  rw [hx]
  exact ⟨Engine.output_putOutput_ne e x h, rfl, rfl, rfl, rfl⟩

/-- An IN-SERVICE output outside a hand-over takes its target and ramps toward it. -/
theorem driveOutput_inService {e : Engine} {o : OutputNo} (hs : (e.output o).state = .inService) (hh : e.ost.handOver = none) :
    e.driveOutput o = e.putOutput o { e.output o with
      target := e.targetOf o, level := ramp (outputKind o) (e.output o).level (e.targetOf o) } := by
  simp [Engine.driveOutput, hs, hh]

/-- The drive at a scan end gives an IN-SERVICE output outside a hand-over the target that stands after it, and takes its
level one step of its ramp. -/
theorem output_driveOutputs {e : Engine} {straps : Straps} {o : OutputNo} (hp : outputPresent straps o = true)
    (hs : (e.output o).state = .inService) (hh : e.ost.handOver = none) : (e.driveOutputs straps).output o
      = { e.output o with
          target := (e.driveOutputs straps).targetOf o
          level := ramp (outputKind o) (e.output o).level ((e.driveOutputs straps).targetOf o) } := by
  obtain ⟨a, ha, hb⟩ := foldl_outputs_once (R := DrivesOthers o) (.refl o) .trans
    (f := fun e p => if outputPresent straps p then e.driveOutput p else e)
    (o := o) (fun e p hpo => by
      split
      · exact drivesOthers_driveOutput e hpo
      · exact .refl o e) e
  have hown := driveOutput_inService (e := a) (by rw [ha.output]; exact hs) (ha.handOver.trans hh)
  rw [if_pos hp, hown] at hb
  have hstep : e.driveOutputs straps = allOutputs.foldl (fun e p => if outputPresent straps p then e.driveOutput p else e) e := by
    have hnone := hb.handOver.trans (ha.handOver.trans hh)
    unfold Engine.driveOutputs Engine.handOverStep
    rw [hnone]
  have htarget : (e.driveOutputs straps).targetOf o = a.targetOf o := by
    rw [hstep, hb.targetOf]
    simp only [Engine.targetOf, Engine.output_putOutput_self]
    rfl
  rw [htarget, hstep, hb.output, Engine.output_putOutput_self, ha.output]

/-! ### The full scan's end (O42) -/

/-- Up to the work of a full scan's end of a READY part, an output has its feedback read and nothing else (R115). -/
theorem readForWork_output {e : Engine} {t : Tables} (x : ScanInput) {o : OutputNo} (hready : e.part = .ready)
    (hh : e.ost.handOver = none) (hp : outputPresent t.straps o = true) :
    (e.readForWork t x).1.output o = (e.output o).read (outputKind o) (Bank.nth x.feedback.outputs o)
    ∧ (e.readForWork t x).1.ost.handOver = none ∧ (e.readForWork t x).1.part = .ready := by
  have := leavesOutput_judges o
  have := leavesOutput_meters o
  have hmeters : LeavesOutput o e (((e.verdicts t x.readings).equalizeFall 1).judgeMeters t (Engine.grantScan t)
      (fun m => Bank.nth x.meters m.idx)).1 :=
    (((via_verdicts e t x.readings).trans (via_equalizeFall _ 1)).trans (via_judgeMeters (via_grantScan t) _ t _)).it
  unfold Engine.readForWork
  refine ⟨?_, ?_, (keepsWork_readFeedback _ _ _).part.trans (hmeters.part hready)⟩
  · rw [output_readFeedback _ _ hp, hmeters.output]
  · rw [readFeedback_handOver]
    exact hmeters.handOver hh

/-- From there on a full scan's end of a READY part whose expiries are rows of their own leaves an output below the bound
alone, whether faults are judged before the work or after it, until it drives the outputs (R117, R121). -/
theorem fullScanEnd_drives {e : Engine} {t : Tables} {x : ScanInput} {o : OutputNo} (hd : x.order.due = .separate)
    (hready : (e.readForWork t x).1.part = .ready) (hc : ((e.readForWork t x).1.output o).current < overcurrentBound) :
    ∃ a : Engine, LeavesOutput o (e.readForWork t x).1 a ∧ e.fullScanEnd t x = a.driveOutputs t.straps := by
  have := leavesOutput_judges o
  have hwork (a : Engine) (f : ScanFigures) (b : Bank (Option Order) 6) : LeavesOutput o a (a.judgeWork t x f b) :=
    (via_judgeWork a t x f b).it
  have hlast {a : Engine} (ha : a.part = .ready) :
      whenReady (fun e => e) (whenReady (fun e => e.driveOutputs t.straps) a) = a.driveOutputs t.straps := by
    rw [whenReady_ready ha, whenReady_ready ((keepsWork_driveOutputs a t.straps).part.trans ha)]
  unfold Engine.readForWork at hready hc ⊢
  unfold Engine.fullScanEnd
  dsimp only at hready hc ⊢
  generalize Engine.judgeMeters _ _ _ _ = q at hready hc ⊢
  rw [hd]
  simp only [whenWithin_separate]
  rw [whenReady_ready ((keepsWork_readFeedback q.1 t.straps x.feedback).part.symm.trans hready)]
  generalize q.1.readFeedback t.straps x.feedback = r at hready hc ⊢
  cases x.order.faultsFirst with
  | true =>
    simp only [if_true]
    rw [whenReady_ready hready, judgeOutputs_separate]
    have hjudged := (leavesOutput_overcurrents t hc).trans (hwork _ ⟨q.2, .separate⟩ e.ordersNow)
    exact ⟨_, hjudged, hlast (hjudged.part hready)⟩
  | false =>
    simp only [Bool.false_eq_true, if_false]
    have hworked := hwork r ⟨q.2, .separate⟩ e.ordersNow
    rw [whenReady_ready (hworked.part hready), judgeOutputs_separate]
    have hjudged := hworked.trans (leavesOutput_overcurrents t (by rw [hworked.output]; exact hc))
    exact ⟨_, hjudged, hlast (hjudged.part hready)⟩

theorem read_inService {r : OutputRec} (h : r.state = .inService) (k : OutputKind) (f : OutputFeedback) :
    (r.read k f).state = .inService ∧ (r.read k f).level = r.level ∧ (r.read k f).current = f.current := by
  simp [OutputRec.read, h]

/-- After a full scan's end whose expiries are rows of their own stand the engine's blocks as its work leaves them. -/
theorem endScan_engine (s : State) (f : Feedback) {ord : ScanOrder} (hd : ord.due = .separate) : ∃ w,
    (s.endScan .full f ord).eng = { s.eng.fullScanEnd s.tab (s.scanInput f ord) with wake := w } := by
  rw [endScan_full s (show ScanKind.full ≠ .parked by decide), hd]
  dsimp only [State.afterFullScan, State.parkTick]
  split <;> exact ⟨_, rfl⟩

/-- Settles O42: up to the drive at the end nothing reaches the output but the reading of its feedback. -/
theorem outputsDriven : Obligations.OutputsDriven := by
  intro s f ord o hrun hscan hready hdue hhand hpresent hserves hcurrent
  have hp : outputPresent s.tab.straps o = true := by
    rw [outputPresent, Bool.or_eq_true, decide_eq_true_eq]
    by_cases ho : o = 8
    · exact .inl (hpresent ho)
    · exact .inr (Nat.lt_of_le_of_ne (Nat.le_of_lt_succ o.isLt) fun k => ho (Fin.ext k))
  obtain ⟨hstate, hlevel, hreads⟩ := read_inService hserves (outputKind o) (Bank.nth f.outputs o)
  obtain ⟨hread, hnone, hpart⟩ := readForWork_output (s.scanInput f ord) hready hhand hp
  replace hread : _ = (s.eng.output o).read (outputKind o) (Bank.nth f.outputs o) := hread
  obtain ⟨a, ha, hend⟩ := fullScanEnd_drives (o := o) hdue hpart (by rw [hread, hreads]; exact hcurrent)
  rw [← ha.output] at hread
  have hdriven := output_driveOutputs hp (by rw [hread]; exact hstate) (ha.handOver hnone)
  rw [← hend, hread, hlevel] at hdriven
  obtain ⟨w, hw⟩ := endScan_engine s f hdue
  refine ⟨_, exec_scanEnd hrun hscan f ord, ?_⟩
  rw [hw]
  generalize s.eng.fullScanEnd s.tab (s.scanInput f ord) = b at hdriven ⊢
  have hstate' : (b.output o).state = .inService := (congrArg OutputRec.state hdriven).trans hstate
  have htarget : (b.output o).target = b.targetOf o := congrArg OutputRec.target hdriven
  refine ⟨hstate', (congrArg OutputRec.current hdriven).trans hreads, fun r hr => htarget.trans (targetOf_served hstate' hr),
    fun hr => htarget.trans (targetOf_unserved hr), ?_⟩
  have hramped : (b.output o).level = ramp (outputKind o) (s.eng.output o).level (b.output o).target := by
    rw [htarget]
    exact congrArg OutputRec.level hdriven
  exact hramped

end Sys2Proof.Machine
end

section
/-! O30, O4: TEST OUTPUT by the cases of R127, and what the events of supply and reset pin make of the part. -/

namespace Sys2Proof.Machine

open Sys2Proof

/-! ### The output or valve that a TEST OUTPUT names (R127, case 1) -/

/-- Every output is fitted but O9, which the strap SPARE fits (R115). -/
theorem outputPresent_of_spare {straps : Straps} {o : OutputNo} (h : o = 8 → straps.spare = true) :
    outputPresent straps o = true := by
  rw [outputPresent, Bool.or_eq_true, decide_eq_true_eq]
  by_cases ho : o = 8
  · exact .inl (h ho)
  · exact .inr (Fin.lt_last_iff_ne_last.2 ho)

theorem testedOutput_val {straps : Straps} {o : OutputNo} (h : o = 8 → straps.spare = true) :
    testedOutput straps (o.val + 1) = some o := by
  simp [testedOutput, finOf_val, outputPresent_of_spare h]

theorem testedOutput_none {straps : Straps} {n : Nat} (h : n = 0 ∨ 9 < n ∨ (n = 9 ∧ straps.spare = false)) :
    testedOutput straps n = none := by
  rcases h with rfl | h | ⟨rfl, h⟩
  case inl => rfl
  case inr.inl =>
    have hn : n ≠ 0 := by omega
    have hr : ¬ n - 1 < 9 := by omega
    simp [testedOutput, finOf, hn, hr]
  case inr.inr => simp [testedOutput, finOf, outputPresent, h]

theorem valveOf_val (v : ValveNo) : valveOf (v.val + 1) = some v := by
  simp [valveOf, finOf_val]

theorem valveOf_none {n : Nat} (h : n = 0 ∨ 6 < n) : valveOf n = none := by
  rcases h with rfl | h
  case inl => rfl
  case inr =>
    have hn : n ≠ 0 := by omega
    have hr : ¬ n - 1 < 6 := by omega
    simp [valveOf, finOf, hn, hr]

/-! ### What a begun test makes of the engine (R127, R128) -/

/-- Of the outputs, O5 alone drives the compressor, whose circuit its test sets. -/
theorem testCircuit_eq (comp : Compressor) (o : OutputNo) :
    testCircuit comp o = if o = 4 then some (comp.mode.getD .cool) else none := by
  have hkind : outputKind o = .compressor ↔ o = 4 := by
    revert o
    decide
  unfold testCircuit
  by_cases ho : o = 4
  · rw [hkind.2 ho, if_pos ho]
  · rw [if_neg ho]
    cases hk : outputKind o with
    | compressor => exact absurd (hkind.1 hk) ho
    | pump | chiller | heater | fan => rfl

theorem beginOutputTest_eq (e : Engine) (o : OutputNo) :
    let e1 := e.putOutput o { e.output o with state := .testing, target := 0, level := 300, testTimer := some 20 }
    e.beginOutputTest o
      = if o = 4 then { e1 with ost := { e1.ost with circuit := e.mar.comp.mode.getD .cool } } else e1 := by
  rw [Engine.beginOutputTest, testCircuit_eq]
  split <;> rfl

/-- The position `back` to which a valve returns from its test: the commanded one, else the one read, else 0. -/
def ValveRec.ReturnsTo (x : ValveRec) (back : Nat) : Prop :=
  (∀ p, x.commanded = some p → back = p)
  ∧ (∀ p, x.commanded = none → x.feedback = some p → back = if x.missCount = 0 then p else 0)
  ∧ (x.commanded = none → x.feedback = none → back = 0)

theorem beginValveTest_eq {e : Engine} {v : ValveNo} {back : Nat} (h : (e.valve v).ReturnsTo back) (t : Tables) :
    e.beginValveTest t v = e.putValve v
      { e.valve v with commanded := some 0, travelTimer := t.tuning.valveTimeout * 10, missCount := 0
                       test := some ⟨.toZero, back⟩ } := by
  obtain ⟨hcommanded, hread, hunread⟩ := h
  unfold Engine.beginValveTest
  cases hc : (e.valve v).commanded with
  | some p => simp only [hc, hcommanded p hc]
  | none =>
    cases hf : (e.valve v).feedback with
    | some p => simp only [hc, hf, hread p hc hf]
    | none => simp only [hc, hf, hunread hc hf]

/-! ### The cases of R127 -/

section
variable {s : State} {f : Frame} (h : s.accepts f)
include h

/-- A part that takes a TEST OUTPUT and is not READY is WAKING, or has been woken by the request's frame. -/
theorem asTaken_waking_of_accepts (hp : s.eng.part ≠ .ready) : s.asTaken.eng.part = .waking := by
  obtain ⟨-, hstarting, -⟩ := h
  rw [asTaken_waking]
  cases hk : s.eng.part with
  | starting => exact absurd hk hstarting
  | ready => exact absurd hk hp
  | parked => exact .inr rfl
  | waking => exact .inl rfl

theorem exec_testOutput {i : TestItem} {t : State} {c : ReplyCode} (ho : answerTest i s.asTaken = t.says c) :
    exec (.testOutput f i) s = .next (t.answered f 0xB2 c .none) := request_says h rfl ho

/-- The request for an output that exists is judged by the output. -/
theorem exec_testOutput_output {o : OutputNo} (hspare : o = 8 → s.tab.straps.spare = true) {t : State} {c : ReplyCode}
    (ho : answerOutputTest s.asTaken o = t.says c) :
    exec (.testOutput f (.output (o.val + 1))) s = .next (t.answered f 0xB2 c .none) := by
  refine exec_testOutput h ?_
  rw [← ho, answerTest, State.asTaken_tab, testedOutput_val hspare]

/-- The request for a valve that exists is judged by the valve. -/
theorem exec_testOutput_valve {v : ValveNo} {t : State} {c : ReplyCode} (ho : answerValveTest s.asTaken v = t.says c) :
    exec (.testOutput f (.valve (v.val + 1))) s = .next (t.answered f 0xB2 c .none) := by
  refine exec_testOutput h ?_
  rw [← ho, answerTest, valveOf_val]

end

theorem answerOutputTest_waking {s : State} (hp : s.eng.part = .waking) (o : OutputNo) :
    answerOutputTest s o = s.says .notPermitted := if_pos hp

theorem answerValveTest_waking {s : State} (hp : s.eng.part = .waking) (v : ValveNo) :
    answerValveTest s v = s.says .notPermitted := if_pos hp

section
variable {s : State} (hp : s.eng.part = .ready) {o : OutputNo} {v : ValveNo}
include hp

theorem answerOutputTest_testing (hs : (s.eng.output o).state = .testing) :
    answerOutputTest s.asTaken o = s.asTaken.says .inUse := by
  simp [answerOutputTest, hp, hs]

theorem answerOutputTest_inService (hs : (s.eng.output o).state = .inService) :
    answerOutputTest s.asTaken o = s.asTaken.says .notPermitted := by
  simp [answerOutputTest, hp, hs]

/-- The compressor's output is not tested while its condition is not STEADY. -/
theorem answerOutputTest_unsteady (hs : (s.eng.output o).state = .faulted) (ho : o = 4)
    (hc : s.eng.mar.comp.condition ≠ .steady) : answerOutputTest s.asTaken o = s.asTaken.says .notPermitted := by
  subst ho
  simp [answerOutputTest, hp, hs, hc]

theorem answerOutputTest_begins (hs : (s.eng.output o).state = .faulted) (hc : o = 4 → s.eng.mar.comp.condition = .steady) :
    answerOutputTest s.asTaken o = (s.asTaken.putEngine (s.eng.beginOutputTest o)).says .ok := by
  have hsteady : ¬ (o = 4 ∧ s.eng.mar.comp.condition ≠ .steady) := fun k => k.2 (hc k.1)
  simp [answerOutputTest, hp, hs, if_neg hsteady]

theorem answerValveTest_underWay (ht : (s.eng.valve v).test ≠ none) :
    answerValveTest s.asTaken v = s.asTaken.says .inUse := by
  simp [answerValveTest, hp, Option.isSome_iff_ne_none.2 ht]

theorem answerValveTest_sound (ht : (s.eng.valve v).test = none) (hs : (s.eng.valve v).state ≠ .faulted) :
    answerValveTest s.asTaken v = s.asTaken.says .notPermitted := by
  simp [answerValveTest, hp, ht, hs]

theorem answerValveTest_held (ht : (s.eng.valve v).test = none) (hs : (s.eng.valve v).state = .faulted)
    (hheld : ∃ g ∈ s.eng.mar.grants, g.namesValve v = true) : answerValveTest s.asTaken v = s.asTaken.says .inUse := by
  have hholders : (valveHoldersOf s.eng.mar.grants v).isEmpty = false :=
    Bool.eq_false_iff.2 fun he => (valveHoldersOf_isEmpty _ _).1 he hheld
  simp [answerValveTest, hp, ht, hs, hholders]

theorem answerValveTest_begins (ht : (s.eng.valve v).test = none) (hs : (s.eng.valve v).state = .faulted)
    (hfree : ∀ g ∈ s.eng.mar.grants, g.namesValve v = false) :
    answerValveTest s.asTaken v = (s.asTaken.putEngine (s.eng.beginValveTest s.tab v)).says .ok := by
  have hholders : (valveHoldersOf s.eng.mar.grants v).isEmpty = true :=
    (valveHoldersOf_isEmpty _ _).2 fun ⟨g, hg, hn⟩ => by simp [hfree g hg] at hn
  simp [answerValveTest, hp, ht, hs, hholders]

end

/-- Settles O30: the item named or none, then the cases of R127 in their order, the begun test by what it makes of the engine. -/
theorem testBegun : Obligations.TestBegun := by
  intro s f h answers
  refine ⟨exec_testOutput h rfl, fun n hn => exec_testOutput h ?_, fun n hn => exec_testOutput h ?_,
    fun o hspare => ?_, fun v => ?_⟩
  · rw [answerTest, State.asTaken_tab, testedOutput_none hn]
  · rw [answerTest, valveOf_none hn]
  · have judged {t : State} {c : ReplyCode} := exec_testOutput_output h hspare (t := t) (c := c)
    refine ⟨fun hp => judged (answerOutputTest_waking (asTaken_waking_of_accepts h hp) o),
      fun hp hs => judged (answerOutputTest_testing hp hs), fun hp hs => judged (answerOutputTest_inService hp hs),
      fun hp hs ho hc => judged (answerOutputTest_unsteady hp hs ho hc), fun hp hs hc => ?_⟩
    intro e
    rw [judged (answerOutputTest_begins hp hs hc), beginOutputTest_eq]
  · have judged {t : State} {c : ReplyCode} := exec_testOutput_valve h (v := v) (t := t) (c := c)
    refine ⟨fun hp => judged (answerValveTest_waking (asTaken_waking_of_accepts h hp) v),
      fun hp ht => judged (answerValveTest_underWay hp ht), fun hp ht hs => judged (answerValveTest_sound hp ht hs),
      fun hp ht hs hheld => judged (answerValveTest_held hp ht hs hheld),
      fun hp ht hs hfree back hcommanded hread hunread => ?_⟩
    rw [judged (answerValveTest_begins hp ht hs hfree), beginValveTest_eq ⟨hcommanded, hread, hunread⟩]

/-! ### Supply and reset pin (R190, R193) -/

theorem storedAfterCut_eq (s : State) : s.storedAfterCut = if s.cfc.save = .writing then none else s.stored := by
  unfold State.storedAfterCut
  cases s.cfc.save <;> rfl

theorem restart_eq (s : State) (straps : Straps) : s.restart straps
    = State.fresh straps s.eng.ost.circuit (if s.cfc.save = .writing then none else s.stored) s.pending := by
  rw [State.restart, storedAfterCut_eq]

theorem stopped_eq (s : State) (r : RunState) : s.stopped r
    = { State.fresh s.tab.straps s.eng.ost.circuit (if s.cfc.save = .writing then none else s.stored) s.pending
        with run := r } := by
  rw [State.stopped, storedAfterCut_eq]

/-- With supply, at a low pin or not, the release of the reset pin restarts the part. -/
theorem execResetPinRelease_supplied {s : State} (h : s.run ≠ .noSupply) (straps : Straps) :
    execResetPinRelease straps s = .next (s.restart straps) := by
  unfold execResetPinRelease
  cases hr : s.run with
  | running | heldInReset => rfl
  | noSupply => exact absurd hr h

theorem execResetPinAssert_running {s : State} (h : s.run = .running) :
    execResetPinAssert s = .next (s.stopped .heldInReset) := by
  rw [execResetPinAssert, h]

/-- With supply, the reset pin low or not, a power loss stops the part. -/
theorem execPowerLoss_supplied {s : State} (h : s.run ≠ .noSupply) : execPowerLoss s = .next (s.stopped .noSupply) := by
  unfold execPowerLoss
  cases hr : s.run with
  | running | heldInReset => rfl
  | noSupply => exact absurd hr h

/-- Settles O4: each event restarts the part or stops it, and either keeps of the save and the memory what the cut leaves. -/
theorem supplyAndPin : Obligations.SupplyAndPin := by
  intro s straps kept circuit
  have hrestart : s.restart straps = State.fresh straps circuit kept s.pending := restart_eq s straps
  have hstopped (r : RunState) : s.stopped r = { State.fresh s.tab.straps circuit kept s.pending with run := r } :=
    stopped_eq s r
  refine ⟨congrArg _ hrestart, fun hs => ?_, fun hs => ?_, fun hs => ?_⟩
  · exact (execResetPinRelease_supplied hs straps).trans (congrArg _ hrestart)
  · exact (execResetPinAssert_running hs).trans (congrArg _ (hstopped _))
  · exact (execPowerLoss_supplied hs).trans (congrArg _ (hstopped _))

end Sys2Proof.Machine
end

section
/-! O39: how a scan end judges the zones, and what follows for orders and reserves where one zone changes its state. -/

namespace Sys2Proof.Machine

open Sys2Proof

/-! ### The tables of R137 and R138 -/

theorem atOrAbove_iff (v l : Option Int) : atOrAbove v l = true ↔ ∃ x y, v = some x ∧ l = some y ∧ y ≤ x := by
  cases v <;> cases l <;> simp [atOrAbove]

theorem atOrBelow_iff (v l : Option Int) : atOrBelow v l = true ↔ ∃ x y, v = some x ∧ l = some y ∧ x ≤ y := by
  cases v <;> cases l <;> simp [atOrBelow]

/-- The bound at which a high trip ends, one tenth below the limit less the hysteresis, is met below the latter. -/
theorem atOrBelow_cooled_iff (v l : Option Int) (n : Int) : atOrBelow v (l.map (· - n - 1)) = true
    ↔ ∃ x y, v = some x ∧ l = some y ∧ x < y - n := by
  cases v <;> cases l <;> simp [atOrBelow]

theorem atOrAbove_warmed_iff (v l : Option Int) (n : Int) : atOrAbove v (l.map (· + n + 1)) = true
    ↔ ∃ x y, v = some x ∧ l = some y ∧ y + n < x := by
  cases v <;> cases l <;> simp [atOrAbove]

theorem zoneNext_unread {r : Reading} (h : r.count = 0) (l : Limits) (st : ZoneState) : zoneNext l r st = .blind := by
  cases st <;> simp [zoneNext, h]

section
variable {r : Reading} (h : r.count ≠ 0) (l : Limits)
include h

theorem zoneNext_normal : zoneNext l r .normal = if atOrAbove r.hottest l.hardHigh then .highTrip
    else if atOrBelow r.coldest l.hardLow then .lowTrip else .normal := if_neg h

theorem zoneNext_highTrip : zoneNext l r .highTrip
    = if atOrBelow r.hottest (l.hardHigh.map (· - l.hysteresis - 1)) then .normal else .highTrip := if_neg h

theorem zoneNext_lowTrip : zoneNext l r .lowTrip
    = if atOrAbove r.coldest (l.hardLow.map (· + l.hysteresis + 1)) then .normal else .lowTrip := if_neg h

theorem zoneNext_blind : zoneNext l r .blind = .normal := if_neg h

end

/-- The state a zone takes at the scan end that comes (R137). -/
def State.zoneNow (s : State) (z : Zone) : ZoneState :=
  zoneNext (s.tab.zone z).limits (Bank.nth s.sbe.formReadings z.idx) (s.eng.zone z).state

/-! ### The judgement of one zone and of the others -/

/-- What follows the trip record at a trigger: the offending orders, the reserve start, the report (R139, R141, R148). -/
def Engine.tripped (e : Engine) (t : Tables) (k : Engine → Engine) (z : Zone) (st : ZoneState) : Engine :=
  (match (t.zone z).reserve with
    | none => e.endOffenders t k z st
    | some x =>
      if startFallsDue st (e.zone z).trip.outcome then (e.endOffenders t k z st).reserveDue t k z x
      else e.endOffenders t k z st).handZone z

section
variable {t : Tables} {k : Engine → Engine} {r : Bank Reading 6} {e : Engine} {z : Zone} {st : ZoneState}

theorem judgeZone_stands (h : (e.zone z).state = zoneNext (t.zone z).limits (Bank.nth r z.idx) (e.zone z).state) :
    Engine.judgeZone t k r e z = e := if_pos h.symm

variable (hst : zoneNext (t.zone z).limits (Bank.nth r z.idx) (e.zone z).state = st) (hne : st ≠ (e.zone z).state)
include hst hne

theorem judgeZone_trips (hn : st ≠ .normal) : Engine.judgeZone t k r e z
    = (e.wakeUp.trigger z st (Bank.nth r z.idx)).tripped t k z st := by
  subst hst
  exact (if_neg hne).trans (if_neg hn)

theorem judgeZone_returns (hn : st = .normal) : Engine.judgeZone t k r e z = e.returnNormal z := by
  subst hst
  exact (if_neg hne).trans (if_pos hn)

end

theorem tripped_unreserved {t : Tables} (k : Engine → Engine) {z : Zone} (h : (t.zone z).reserve = none) (e : Engine)
    (st : ZoneState) : e.tripped t k z st = (e.endOffenders t k z st).handZone z := by
  rw [Engine.tripped, h]

theorem tripped_reserved {t : Tables} (k : Engine → Engine) {z : Zone} {x : Reserve} (h : (t.zone z).reserve = some x)
    (e : Engine) (st : ZoneState) : e.tripped t k z st
      = (if startFallsDue st (e.zone z).trip.outcome then (e.endOffenders t k z st).reserveDue t k z x
          else e.endOffenders t k z st).handZone z := by
  rw [Engine.tripped, h]

/-- The zones are judged one after the other: those before a zone, the zone, those after it (R137). -/
theorem judgeZones_around (z : Zone) : ∃ l l' : List Zone, z ∉ l ∧ z ∉ l' ∧ ∀ (e : Engine) (t : Tables) (k : Engine → Engine)
    (r : Bank Reading 6), e.judgeZones t k r
      = l'.foldl (Engine.judgeZone t k r) (Engine.judgeZone t k r (l.foldl (Engine.judgeZone t k r) e) z) := by
  obtain ⟨i, hi, ha, hb⟩ : ∃ i : Fin 6, Zone.all = Zone.all.take i ++ z :: Zone.all.drop (i + 1)
      ∧ z ∉ Zone.all.take i ∧ z ∉ Zone.all.drop (i + 1) := by cases z <;> decide
  refine ⟨_, _, ha, hb, fun e t k r => ?_⟩
  rw [← List.foldl_cons, ← List.foldl_append, ← hi, Engine.judgeZones]

/-- Where no other zone changes its state, the judgement of the zones is that of the one. -/
theorem judgeZones_one {e : Engine} {t : Tables} {r : Bank Reading 6} {z : Zone}
    (h : ∀ y, y ≠ z → (e.zone y).state = zoneNext (t.zone y).limits (Bank.nth r y.idx) (e.zone y).state) :
    e.judgeZones t (Engine.grantScan t) r = Engine.judgeZone t (Engine.grantScan t) r e z := by
  refine foldl_one_zone _ _ _ z (fun y hy => judgeZone_stands (h y hy)) rfl fun y hy => judgeZone_stands ?_
  rw [(keepsTrip_judgeOther (fun k => hy k.symm) t r e).state]
  exact h y hy

/-- The judgement of other zones (R137). -/
theorem keepsTrip_judgeOthers {z : Zone} {l : List Zone} (h : z ∉ l) (t : Tables) (r : Bank Reading 6) (e : Engine) :
    KeepsTrip z e (l.foldl (Engine.judgeZone t (Engine.grantScan t) r) e) :=
  List.foldlRecOn (motive := KeepsTrip z e) _ _ (.same rfl rfl) fun _ hb _ hy =>
    hb.trans (keepsTrip_judgeOther (ne_of_mem_of_not_mem hy h) t r _)

/-! ### The verdicts at the end of a scan (R138) -/

/-- Every zone has the same verdicts. -/
structure SameVerdicts (a b : Engine) : Prop where
  depleted : ∀ z, (b.zone z).depleted = (a.zone z).depleted
  full : ∀ z, (b.zone z).full = (a.zone z).full

theorem Grants.verdicts {a b : Engine} (h : Grants a b) : SameVerdicts a b := ⟨h.depleted, h.full⟩

theorem SameVerdicts.same {a b : Engine} (h : b.zones = a.zones) : SameVerdicts a b := by
  constructor <;> intro z <;> simp [Engine.zone, h]

theorem SameVerdicts.trans {a b c : Engine} (h : SameVerdicts a b) (k : SameVerdicts b c) : SameVerdicts a c :=
  ⟨fun z => (k.depleted z).trans (h.depleted z), fun z => (k.full z).trans (h.full z)⟩

/-- A change of one zone's record that keeps its verdicts. -/
theorem SameVerdicts.putZone (e : Engine) (z : Zone) (x : ZoneRec) (hd : x.depleted = (e.zone z).depleted)
    (hf : x.full = (e.zone z).full) : SameVerdicts e (e.putZone z x) := by
  constructor <;> intro y <;> by_cases h : z = y
  · subst h
    rwa [Engine.zone_putZone_self]
  · rw [Engine.zone_putZone_ne _ _ h]
  · subst h
    rwa [Engine.zone_putZone_self]
  · rw [Engine.zone_putZone_ne _ _ h]

theorem sameVerdicts_trigger (e : Engine) (z : Zone) (st : ZoneState) (r : Reading) : SameVerdicts e (e.trigger z st r) :=
  .putZone _ _ _ rfl rfl

theorem sameVerdicts_pends : Pends SameVerdicts where
  refl _ := .same rfl
  trans := .trans
  putChannel _ _ _ := .same rfl
  putMar _ _ := .same rfl
  putValve _ _ _ := .same rfl
  setCircuit _ _ := .same rfl
  putRegState _ _ := .same rfl
  hand _ _ := .same rfl
  setOutcome _ _ _ := .putZone _ _ _ rfl rfl
  clearPending _ _ := .putZone _ _ _ rfl rfl
  setPending _ _ := .putZone _ _ _ rfl rfl

theorem sameVerdicts_drives : Drives SameVerdicts where
  toBase := sameVerdicts_pends.toBase
  putMeter _ _ _ := .same rfl
  putOst _ _ := .same rfl

theorem via_tripped {R : Engine → Engine → Prop} [Pends R] {k : Engine → Engine} (hk : Vias R k) (e : Engine) (t : Tables)
    (z : Zone) (st : ZoneState) : Via R e (e.tripped t k z st) := by
  have hend : Via R e (e.endOffenders t k z st) := via_endOffenders hk _ _ _ _
  refine Via.trans ?_ (via_handZone _ _)
  split
  · exact hend
  · split
    · exact hend.trans (via_reserveDue hk _ _ _ _)
    · exact hend

theorem sameVerdicts_judgeZones (e : Engine) (t : Tables) (r : Bank Reading 6) :
    SameVerdicts e (e.judgeZones t (Engine.grantScan t) r) := by
  have := sameVerdicts_pends
  refine (Via.foldl _ (fun e z => ⟨?_⟩) Zone.all e).it
  by_cases hst : zoneNext (t.zone z).limits (Bank.nth r z.idx) (e.zone z).state = (e.zone z).state
  · rw [judgeZone_stands hst.symm]
    exact .same rfl
  · by_cases hn : zoneNext (t.zone z).limits (Bank.nth r z.idx) (e.zone z).state = .normal
    · rw [judgeZone_returns rfl hst hn, Engine.returnNormal]
      exact (SameVerdicts.putZone e z { e.zone z with state := .normal } rfl rfl).trans
        ((via_dropPending _ _).trans (via_handZone _ _)).it
    · rw [judgeZone_trips rfl hst hn]
      have hwake : SameVerdicts e e.wakeUp := .same (Engine.wakeUp_zones e)
      exact (hwake.trans (sameVerdicts_trigger _ z _ _)).trans (via_tripped (via_grantScan t) _ t z _).it

/-- What a full scan's end does between its verdicts and the judgement of the zones, and after it, any relation admits that
admits the courses of orders, the meters and the output stage. -/
theorem via_aroundZones {R : Engine → Engine → Prop} [Pends R] [Drives R] (e : Engine) (t : Tables) (x : ScanInput) :
    ∃ a, Via R (e.verdicts t x.readings) a
      ∧ Via R (a.judgeZones t (Engine.grantScan t) x.readings) (e.fullScanEnd t x) := by
  have hk := via_grantScan (R := R) t
  have hread : Vias R (fun e => whenWithin x.order.due (Engine.allValvesArrive t) (e.readFeedback t.straps x.feedback)) :=
    fun _ => (via_readFeedback _ _ _).trans (via_whenWithin _ _ (via_allValvesArrive t) _)
  have hjudge : Vias R (whenReady (Engine.judgeOutputs t x.order.due)) := via_whenReady _ (via_judgeOutputs t _)
  have hdrive : Vias R (whenReady (fun e => e.driveOutputs t.straps)) := via_whenReady _ (fun _ => via_driveOutputs _ _)
  have hvalves : Vias R (whenReady (whenWithin x.order.due (fun e => (e.handOverEnds).valvesDue t))) :=
    via_whenReady _ (via_whenWithin _ _ (fun _ => (via_handOverEnds _).trans (via_valvesDue t _)))
  have hholds : Vias R (whenWithin x.order.due (Engine.allHoldsExpire t)) := via_whenWithin _ _ (via_allHoldsExpire t)
  have hequalize : Vias R (whenWithin x.order.due (Engine.equalizeIfOver t)) := via_whenWithin _ _ (via_equalizeIfOver t)
  have hwork (b : Engine) (f : ScanFigures) (o : Bank (Option Order) 6) : ∃ a, Via R b a
      ∧ Via R (a.judgeZones t (Engine.grantScan t) x.readings) (b.judgeWork t x f o) := by
    refine ⟨_, via_channelsWork b t f o x.order.channelsFirst, ?_⟩
    unfold Engine.judgeWork
    dsimp only
    split
    · exact (via_comfortJudge hk _ _ _ _).trans (via_channelsWork _ _ _ _ _)
    · exact (via_channelsWork _ _ _ _ _).trans (via_comfortJudge hk _ _ _ _)
  have hbefore : Via R (e.verdicts t x.readings) (((e.verdicts t x.readings).equalizeFall 1).judgeMeters t
      (Engine.grantScan t) (fun m => Bank.nth x.meters m.idx)).1 :=
    (via_equalizeFall _ _).trans (via_judgeMeters hk _ _ _)
  unfold Engine.fullScanEnd
  dsimp only
  generalize Engine.judgeMeters _ _ _ _ = q at hbefore ⊢
  have hfeedback := hbefore.trans (via_whenReady _ hread q.1)
  cases x.order.faultsFirst with
  | true =>
    obtain ⟨a, ha, hb⟩ := hwork _ ⟨q.2, x.order.due⟩ e.ordersNow
    exact ⟨a, (hfeedback.trans (hjudge _)).trans ha,
      (((hb.trans (hholds _)).trans (hdrive _)).trans (hvalves _)).trans (hequalize _)⟩
  | false =>
    obtain ⟨a, ha, hb⟩ := hwork _ ⟨q.2, x.order.due⟩ e.ordersNow
    exact ⟨a, hfeedback.trans ha,
      ((((hb.trans (hholds _)).trans (hjudge _)).trans (hdrive _)).trans (hvalves _)).trans (hequalize _)⟩

theorem sameVerdicts_fullScanEnd (e : Engine) (t : Tables) (x : ScanInput) :
    SameVerdicts (e.verdicts t x.readings) (e.fullScanEnd t x) := by
  have := sameVerdicts_pends
  have := sameVerdicts_drives
  obtain ⟨a, ha, hb⟩ := via_aroundZones (R := SameVerdicts) e t x
  exact (ha.it.trans (sameVerdicts_judgeZones a t x.readings)).trans hb.it

/-! ### What a scan's end leaves for the zones -/

/-- The zones and the reports after a full or waking scan's end are those that its work leaves. -/
theorem endScan_zones (s : State) {k : ScanKind} (hk : k ≠ .parked) (f : Feedback) (ord : ScanOrder) :
    (s.endScan k f ord).eng.zones = (s.eng.fullScanEnd s.tab (s.scanInput f ord)).zones
    ∧ (s.endScan k f ord).eng.reports = (s.eng.fullScanEnd s.tab (s.scanInput f ord)).reports := by
  have hpark (s : State) : s.parkIfDue.eng.zones = s.eng.zones ∧ s.parkIfDue.eng.reports = s.eng.reports := by
    unfold State.parkIfDue
    split <;> exact ⟨rfl, rfl⟩
  have htick (s : State) : s.parkTick.eng = s.eng := by
    unfold State.parkTick
    split <;> rfl
  rw [endScan_full s hk]
  cases ord.due with
  | within =>
    obtain ⟨hz, hr⟩ := hpark (s.afterFullScan k f ord).parkTick
    rw [htick] at hz hr
    exact ⟨hz, hr⟩
  | separate =>
    dsimp only
    rw [htick]
    exact ⟨rfl, rfl⟩

theorem endScan_parked_eng (s : State) (f : Feedback) (ord : ScanOrder) : (s.endScan .parked f ord).eng
    = (s.eng.verdicts s.tab s.sbe.formReadings).judgeZones s.tab (Engine.grantScan s.tab) s.sbe.formReadings := by
  rw [endScan_parked, Engine.superviseZones]

/-- Every scan's end judges a zone by its reading, limits and state (R137, R144, R147, R148). -/
theorem judgedZone_endScan (s : State) (k : ScanKind) (f : Feedback) (ord : ScanOrder) (z : Zone) :
    JudgedZone z (s.zoneNow z) (Bank.nth s.sbe.formReadings z.idx) s.eng (s.endScan k f ord).eng := by
  unfold State.zoneNow
  by_cases hk : k = .parked
  · subst hk
    have h := judgedZone_superviseZones z s.eng s.tab s.sbe.formReadings
    rwa [endScan_parked_eng]
  · obtain ⟨hz, hr⟩ := endScan_zones s hk f ord
    exact (judgedZone_fullScanEnd z s.eng s.tab (s.scanInput f ord)).within (.same rfl rfl) (.same hz hr)

/-- Every scan's end forms the verdicts of a zone anew (R138). -/
theorem verdicts_endScan (s : State) (k : ScanKind) (f : Feedback) (ord : ScanOrder) (z : Zone) :
    ((s.endScan k f ord).eng.zone z).depleted = depletedVerdict (s.tab.zone z).limits (Bank.nth s.sbe.formReadings z.idx)
    ∧ ((s.endScan k f ord).eng.zone z).full = fullVerdict (s.tab.zone z).limits (Bank.nth s.sbe.formReadings z.idx) := by
  have h : SameVerdicts (s.eng.verdicts s.tab s.sbe.formReadings) (s.endScan k f ord).eng := by
    by_cases hk : k = .parked
    · subst hk
      rw [endScan_parked_eng]
      exact sameVerdicts_judgeZones _ _ _
    · exact (sameVerdicts_fullScanEnd s.eng s.tab (s.scanInput f ord)).trans (.same (endScan_zones s hk f ord).1)
  rw [h.depleted, h.full, zone_verdicts]
  exact ⟨rfl, rfl⟩

/-! ### The part that a trip wakes (R149) -/

/-- The part has woken, and its waking scan is still to start. -/
def Engine.Roused (e : Engine) : Prop := e.part = .waking ∧ e.wake = .scanDue

/-- A PARKED part stays PARKED or is roused, and one that is roused stays so. -/
structure Rouses (a b : Engine) : Prop where
  roused : a.Roused → b.Roused
  parked : a.part = .parked → b.part = .parked ∨ b.Roused

theorem rouses_wakeUp (e : Engine) : Rouses e e.wakeUp := by
  unfold Engine.wakeUp
  split
  · exact ⟨fun _ => ⟨rfl, rfl⟩, fun _ => .inr ⟨rfl, rfl⟩⟩
  all_goals exact ⟨id, .inl⟩

theorem rouses_judges : Judges Rouses where
  refl _ := ⟨id, .inl⟩
  trans h k := ⟨k.roused ∘ h.roused, fun ha => (h.parked ha).elim k.parked (.inr ∘ k.roused)⟩
  putChannel _ _ _ := ⟨id, .inl⟩
  putMar _ _ := ⟨id, .inl⟩
  putValve _ _ _ := ⟨id, .inl⟩
  setCircuit _ _ := ⟨id, .inl⟩
  putRegState _ _ := ⟨id, .inl⟩
  hand _ _ := ⟨id, .inl⟩
  setOutcome _ _ _ := ⟨id, .inl⟩
  clearPending _ _ := ⟨id, .inl⟩
  setPending _ _ := ⟨id, .inl⟩
  putZone _ _ _ := ⟨id, .inl⟩
  wakeUp := rouses_wakeUp

theorem roused_wakeUp {e : Engine} (h : e.part = .parked ∨ e.Roused) : e.wakeUp.Roused := by
  rcases h with h | h
  · rw [Engine.wakeUp, h]
    exact ⟨rfl, rfl⟩
  · exact (rouses_wakeUp e).roused h

theorem via_judgeZone {R : Engine → Engine → Prop} [Judges R] {k : Engine → Engine} (hk : Vias R k) (t : Tables)
    (r : Bank Reading 6) (e : Engine) (z : Zone) : Via R e (Engine.judgeZone t k r e z) := by
  by_cases hst : zoneNext (t.zone z).limits (Bank.nth r z.idx) (e.zone z).state = (e.zone z).state
  · rw [judgeZone_stands hst.symm]
    exact .refl e
  · by_cases hn : zoneNext (t.zone z).limits (Bank.nth r z.idx) (e.zone z).state = .normal
    · rw [judgeZone_returns rfl hst hn]
      exact via_returnNormal e z
    · rw [judgeZone_trips rfl hst hn]
      exact ((via_wakeUp e).trans (via_trigger _ _ _ _)).trans (via_tripped hk _ _ _ _)

/-- A trip at a parked scan's end rouses the part (R149, R197). -/
theorem roused_endScan {s : State} (hp : s.eng.part = .parked) {z : Zone} (hne : s.zoneNow z ≠ (s.eng.zone z).state)
    (hn : s.zoneNow z ≠ .normal) (f : Feedback) (ord : ScanOrder) : (s.endScan .parked f ord).eng.Roused := by
  have := rouses_judges
  obtain ⟨l, l', hl, -, hall⟩ := judgeZones_around z
  have hjudge := via_judgeZone (R := Rouses) (via_grantScan s.tab) s.tab s.sbe.formReadings
  rw [endScan_parked_eng, hall]
  refine (Via.foldl _ hjudge l' _).it.roused ?_
  have hbefore := (via_verdicts (R := Rouses) s.eng s.tab s.sbe.formReadings).trans (Via.foldl _ hjudge l _)
  have hkeeps := (keepsTrip_verdicts z s.eng s.tab s.sbe.formReadings).trans
    (keepsTrip_judgeOthers hl s.tab s.sbe.formReadings (s.eng.verdicts s.tab s.sbe.formReadings))
  generalize l.foldl _ _ = e at hbefore hkeeps ⊢
  have hst : zoneNext (s.tab.zone z).limits (Bank.nth s.sbe.formReadings z.idx) (e.zone z).state = s.zoneNow z := by
    rw [hkeeps.state, State.zoneNow]
  rw [judgeZone_trips hst (by rw [hkeeps.state]; exact hne) hn]
  have hafter : Via Rouses e.wakeUp ((e.wakeUp.trigger z (s.zoneNow z) (Bank.nth s.sbe.formReadings z.idx)).tripped s.tab
      (Engine.grantScan s.tab) z (s.zoneNow z)) :=
    (via_trigger _ _ _ _).trans (via_tripped (via_grantScan _) _ _ _ _)
  exact hafter.it.roused (roused_wakeUp (hbefore.it.parked hp))

end Sys2Proof.Machine
end

section
/-! O39: the zones where every channel is IDLE outside READY, and the pending start that a trip leaves there. -/

namespace Sys2Proof.Machine

open Sys2Proof

/-! ### Arbiter and meters where no channel runs an order -/

theorem KeepsWork.noOrders {a b : Engine} (h : KeepsWork a b) (ha : a.noOrders) : b.noOrders := fun c => by
  simpa [Engine.order, Engine.channel, h.channels] using ha c

theorem mapOrder_leaves (e : Engine) (c : ChannelNo) (f : Order → Order) :
    (e.mapOrder c f).zones = e.zones ∧ (e.mapOrder c f).crg = e.crg := by
  unfold Engine.mapOrder
  split <;> exact ⟨rfl, rfl⟩

/-- A grant changes no zone and nothing of the regulator (R93). -/
theorem grant_leaves (e : Engine) (t : Tables) (s : ClaimSet) :
    (e.grant t s).zones = e.zones ∧ (e.grant t s).crg = e.crg := by
  have commands (a : Engine) (l : List ClaimSet) : KeepsWork a (a.commandValves t l s) := by
    refine KeepsWork.foldl (fun e x => ?_) _ a
    split <;> exact ⟨rfl, rfl, rfl, rfl⟩
  unfold Engine.grant
  rw [(commands _ _).zones, (commands _ _).crg, (mapOrder_leaves _ _ _).1, (mapOrder_leaves _ _ _).2]
  exact ⟨rfl, rfl⟩

/-- A set that is not granted is settled in the arbiter alone (R100, R103). -/
theorem settle_cases (e : Engine) (t : Tables) (s : ClaimSet) :
    e.settle t s = e.grant t s ∨ ∃ m, e.settle t s = { e with mar := m } := by
  unfold Engine.settle
  split
  · exact .inl rfl
  · split
    · unfold Engine.beginModeChange
      split
      · exact .inr ⟨e.mar, rfl⟩
      · exact .inr ⟨_, rfl⟩
    · exact .inr ⟨_, rfl⟩

/-- With every channel IDLE the zones stay as they are, and the channels IDLE. -/
structure Idles (a b : Engine) : Prop where
  orders : b.noOrders
  zones : b.zones = a.zones

theorem Idles.trans {a b c : Engine} (h : Idles a b) (k : Idles b c) : Idles a c := ⟨k.orders, k.zones.trans h.zones⟩

section
variable (t : Tables) {e : Engine} (h : e.noOrders)
include h

theorem idles_revoke (c : ChannelNo) : Idles e (e.revoke t c) := by
  unfold Engine.revoke
  rw [h c]
  exact ⟨h, rfl⟩

theorem idles_settle (s : ClaimSet) : Idles e (e.settle t s) := by
  rcases settle_cases e t s with hs | ⟨m, hs⟩ <;> rw [hs]
  · refine ⟨fun c => ?_, (grant_leaves e t s).1⟩
    rw [order_grant, h c, Option.map_none, ite_self]
  · exact ⟨h, rfl⟩

theorem idles_preempt (s : ClaimSet) (n : Nat) : Idles e (Engine.preempt t s n e) := by
  induction n generalizing e with
  | zero => exact ⟨h, rfl⟩
  | succ n ih =>
    unfold Engine.preempt
    split
    · exact ⟨h, rfl⟩
    · split
      · exact ⟨h, rfl⟩
      · have hrevoked := idles_revoke t h
        exact (hrevoked _).trans (ih (hrevoked _).orders)

theorem idles_judgeSet (left : List ClaimSet) (s : ClaimSet) : Idles e (e.judgeSet t left s) := by
  unfold Engine.judgeSet
  split
  · exact ⟨h, rfl⟩
  · split
    · have hpreempted := idles_preempt t h s 6
      exact hpreempted.trans (idles_settle t hpreempted.orders s)
    · exact idles_settle t h s

theorem idles_walk (n : Nat) (judged : List ChannelNo) (left : List ClaimSet) : Idles e (Engine.walk t n judged left e) := by
  induction n generalizing judged left e with
  | zero => exact ⟨h, rfl⟩
  | succ n ih =>
    unfold Engine.walk
    split
    · exact ⟨h, rfl⟩
    · have hjudged := idles_judgeSet t h left
      exact (hjudged _).trans (ih (hjudged _).orders _ _)

theorem idles_equalizeIfOver : Idles e (Engine.equalizeIfOver t e) := by
  unfold Engine.equalizeIfOver
  split
  · unfold Engine.equalizeEnd
    split
    · exact ⟨h, rfl⟩
    · have hset (m : Arbiter) (x : Option Circuit) : Idles e ({ e with mar := m }.setCircuit x) := ⟨h, rfl⟩
      exact (hset _ _).trans (idles_walk t (hset _ _).orders _ _ _)
  · exact ⟨h, rfl⟩

end

/-- No order that a meter's report reaches: every one waits or sets (R76, R77). -/
def Engine.Unmetered (e : Engine) : Prop := ∀ c o, e.order c = some o → o.phase = .waiting ∨ o.phase = .setting

theorem unmetered_of_noOrders {e : Engine} (h : e.noOrders) : e.Unmetered := fun c o ho => by
  rw [h c] at ho
  cases ho

section
variable {e : Engine} (t : Tables) (k : Engine → Engine) (h : e.Unmetered)
include h

theorem meterReport_unmetered (m : Meter) (x : MeterReport) : e.meterReport t k m x = e := by
  refine foldl_keeps _ _ _ fun c _ => ?_
  unfold Engine.channelReport
  split
  · rfl
  · rename_i o ho
    rcases h c o ho with hp | hp <;> simp [hp]

theorem judgeMeters_unmetered (i : Meter → Option MeterInputs) : ∃ ms, (e.judgeMeters t k i).1 = { e with meters := ms } := by
  refine List.foldlRecOn (motive := fun x : Engine × Bank (Option Int) 4 => ∃ ms, x.1 = { e with meters := ms }) _ _
    ⟨e.meters, rfl⟩ fun x ⟨ms, hms⟩ m _ => ?_
  have hunmetered (y : MeterRec) : (x.1.putMeter m y).Unmetered := by
    rw [hms]
    exact h
  rw [Engine.judgeMeter_fst, meterReport_unmetered t k (hunmetered _), hms]
  exact ⟨_, rfl⟩

theorem allHoldsExpire_unmetered : ∃ ms, Engine.allHoldsExpire t e = { e with meters := ms } := by
  refine List.foldlRecOn (motive := fun x : Engine => ∃ ms, x = { e with meters := ms }) _ _ ⟨e.meters, rfl⟩
    fun x ⟨ms, hms⟩ m _ => ?_
  have hunmetered (y : MeterRec) : (x.putMeter m y).Unmetered := by
    rw [hms]
    exact h
  unfold Engine.holdExpires
  split
  · rw [meterReport_unmetered t _ (hunmetered _), hms]
    exact ⟨_, rfl⟩
  · exact ⟨ms, hms⟩

end

theorem channelsWork_idle {e : Engine} (h : e.noOrders) (t : Tables) (f : ScanFigures) (b : Bank (Option Order) 6)
    (l : List ChannelNo) : e.channelsWork t f b l = e :=
  foldl_keeps _ _ _ fun c _ => channelWork_idle e t _ f c _ (h c)

theorem comfortJudge_quiet {e : Engine} (h : e.comfortQuiet) (t : Tables) (k : Engine → Engine) (b : Bool)
    (mean : Option Int) : e.comfortJudge t k b mean = e := by
  unfold Engine.comfortJudge
  rcases h with h | h <;> rw [h]

/-! ### Outside READY -/

section
variable {e : Engine} (h : Calm e) (t : Tables)
include h

/-- The work of a scan end is the judgement of the zones alone. -/
theorem judgeWork_calm (x : ScanInput) (f : ScanFigures) (b : Bank (Option Order) 6) :
    e.judgeWork t x f b = e.judgeZones t (Engine.grantScan t) x.readings := by
  have hj := calm_judgeZones h t (Engine.grantScan t) x.readings
  unfold Engine.judgeWork
  dsimp only
  rw [channelsWork_idle h.orders, comfortJudge_quiet hj.comfort, channelsWork_idle hj.orders, comfortJudge_quiet hj.comfort,
    ite_self]

/-- What falls due at the end of such a scan touches no zone: holds that run out, and the end of an equalize (R18, R105). -/
theorem zones_whenWithin (d : DueMode) :
    (whenWithin d (Engine.equalizeIfOver t) (whenWithin d (Engine.allHoldsExpire t) e)).zones = e.zones := by
  cases d with
  | separate => rfl
  | within =>
    obtain ⟨ms, hms⟩ := allHoldsExpire_unmetered t (unmetered_of_noOrders h.orders)
    have hover := (idles_equalizeIfOver t (calm_allHoldsExpire t e h).orders).zones
    dsimp only [whenWithin]
    rw [hover, hms]

/-- A scan's end outside READY leaves the zones as their judgement leaves them (R115, R131). -/
theorem fullScanEnd_calm (x : ScanInput) : ∃ a, Calm a ∧ (∀ z, (a.zone z).state = (e.zone z).state)
    ∧ (e.fullScanEnd t x).zones = (a.judgeZones t (Engine.grantScan t) x.readings).zones := by
  have hfall : Calm ((e.verdicts t x.readings).equalizeFall 1) := calm_equalizeFall (calm_verdicts h _ _) _
  have hcalm := calm_judgeMeters hfall t (Engine.grantScan t) (fun m => Bank.nth x.meters m.idx)
  obtain ⟨ms, hms⟩ := judgeMeters_unmetered t (Engine.grantScan t) (unmetered_of_noOrders hfall.orders)
    (fun m => Bank.nth x.meters m.idx)
  refine ⟨_, hcalm, fun z => ?_, ?_⟩
  · have hz := (keepsWork_equalizeFall (e.verdicts t x.readings) 1).zone z
    rw [hms]
    exact (congrArg ZoneRec.state hz).trans (keepsTrip_verdicts z e t x.readings).state
  · have hjudged := calm_judgeZones hcalm t (Engine.grantScan t) x.readings
    have hholds := calm_whenWithin (d := x.order.due) (calm_allHoldsExpire t) _ hjudged
    unfold Engine.fullScanEnd
    dsimp only
    generalize Engine.judgeMeters _ _ _ _ = q at hcalm hjudged hholds ⊢
    rw [whenReady_outside hcalm.part]
    cases x.order.faultsFirst with
    | true =>
      simp only [if_true]
      rw [whenReady_outside hcalm.part, judgeWork_calm hcalm, whenReady_outside hholds.part, whenReady_outside hholds.part]
      exact zones_whenWithin hjudged t _
    | false =>
      simp only [Bool.false_eq_true, if_false]
      rw [judgeWork_calm hcalm, whenReady_outside hholds.part, whenReady_outside hholds.part, whenReady_outside hholds.part]
      exact zones_whenWithin hjudged t _

end

theorem endOffenders_idle {e : Engine} (h : e.noOrders) (t : Tables) (k : Engine → Engine) (z : Zone) (st : ZoneState) :
    e.endOffenders t k z st = e :=
  foldl_keeps _ _ _ fun c _ => by
    unfold Engine.endOffender
    rw [h c]

theorem ownReserve_idle {e : Engine} (h : e.noOrders) (z : Zone) : e.ownReserve z = false := by
  refine Bool.eq_false_iff.2 fun k => ?_
  obtain ⟨c, o, ho, -⟩ := (ownReserve_iff e z).1 k
  rw [h c] at ho
  cases ho

theorem zone_handZone (e : Engine) (z y : Zone) : (e.handZone z).zone y = e.zone y := rfl

/-- A start is pending for the zone, and its trip record says so (R141). -/
def ZoneRec.Awaits (x : ZoneRec) : Prop := x.pending = true ∧ x.trip.outcome = .pending

theorem awaits_becomePending (e : Engine) (z : Zone) : ((e.becomePending z).zone z).Awaits := by
  constructor <;> simp [Engine.becomePending, Engine.setPending, Engine.setOutcome]

theorem zone_becomePending_ne (e : Engine) {y z : Zone} (h : y ≠ z) : (e.becomePending y).zone z = e.zone z := by
  simp [Engine.becomePending, Engine.setPending, Engine.setOutcome, Engine.zone_putZone_ne _ _ h]

theorem calm_trigger {e : Engine} (h : Calm e) (z : Zone) (st : ZoneState) (r : Reading) : Calm (e.wakeUp.trigger z st r) :=
  calm_putZone (calm_wakeUp h) _ _

theorem zone_trigger (e : Engine) (z : Zone) (st : ZoneState) (r : Reading) : (e.trigger z st r).zone z = { e.zone z with
    state := st
    trip := ⟨some st, if st = .blind then none else r.hottest, if st = .blind then none else r.coldest,
      e.triggerOutcome z⟩ } := Engine.zone_putZone_self _ _ _

theorem zone_trigger_ne (e : Engine) {y z : Zone} (h : y ≠ z) (st : ZoneState) (r : Reading) :
    (e.trigger y st r).zone z = e.zone z := Engine.zone_putZone_ne _ _ h

theorem triggerOutcome_idle {e : Engine} (h : e.noOrders) (z : Zone) :
    e.triggerOutcome z = if (e.zone z).pending then .pending else .none := by
  rw [Engine.triggerOutcome, ownReserve_idle h]
  rfl

theorem startFallsDue_none {st : ZoneState} (h : st = .highTrip ∨ st = .lowTrip) : startFallsDue st .none = true := by
  rcases h with h | h <;> rw [h] <;> rfl

theorem startFallsDue_pending (st : ZoneState) : startFallsDue st .pending = false := by
  cases st <;> rfl

section
variable {e : Engine} (h : Calm e) {t : Tables} (k : Engine → Engine) (r : Bank Reading 6)
include h

/-- A reserve start that falls due outside READY is held pending, one that was pending already stays so (R141, R147). -/
theorem awaits_tripped {z : Zone} {st : ZoneState} (hst : st = .highTrip ∨ st = .lowTrip) (hr : (t.zone z).reserve ≠ none)
    (x : Reading) : (((e.wakeUp.trigger z st x).tripped t k z st).zone z).Awaits := by
  obtain ⟨y, hy⟩ := Option.ne_none_iff_exists'.1 hr
  have hcalm := calm_trigger h z st x
  have hzone := zone_trigger e.wakeUp z st x
  rw [triggerOutcome_idle (calm_wakeUp h).orders] at hzone
  rw [tripped_reserved k hy, zone_handZone, endOffenders_idle hcalm.orders, hzone]
  by_cases hp : (e.wakeUp.zone z).pending = true
  · simp only [hp, if_true, startFallsDue_pending, Bool.false_eq_true, if_false]
    rw [hzone]
    exact ⟨hp, if_pos hp⟩
  · simp only [hp, Bool.false_eq_true, if_false, startFallsDue_none hst, if_true]
    rw [reserveDue_outside (ownReserve_idle hcalm.orders z) hcalm.part]
    exact awaits_becomePending _ _

theorem zone_tripped_ne {y z : Zone} (hy : y ≠ z) (st : ZoneState) (x : Reading) :
    ((e.wakeUp.trigger y st x).tripped t k y st).zone z = e.zone z := by
  have hcalm := calm_trigger h y st x
  have hzone : (e.wakeUp.trigger y st x).zone z = e.zone z := (zone_trigger_ne _ hy _ _).trans (Engine.zone_wakeUp e z)
  cases hr : (t.zone y).reserve with
  | none => rw [tripped_unreserved k hr, zone_handZone, endOffenders_idle hcalm.orders, hzone]
  | some v =>
    rw [tripped_reserved k hr, zone_handZone, endOffenders_idle hcalm.orders,
      reserveDue_outside (ownReserve_idle hcalm.orders y) hcalm.part]
    split
    · rw [zone_becomePending_ne _ hy, hzone]
    · exact hzone

/-- Outside READY the judgement of a zone touches no other. -/
theorem zone_judgeZone_ne {y z : Zone} (hy : y ≠ z) : (Engine.judgeZone t k r e y).zone z = e.zone z := by
  by_cases hst : zoneNext (t.zone y).limits (Bank.nth r y.idx) (e.zone y).state = (e.zone y).state
  · rw [judgeZone_stands hst.symm]
  · by_cases hn : zoneNext (t.zone y).limits (Bank.nth r y.idx) (e.zone y).state = .normal
    · rw [judgeZone_returns rfl hst hn, Engine.returnNormal, zone_handZone, Engine.dropPending]
      split <;> simp [Engine.setPending, Engine.setOutcome, Engine.zone_putZone_ne _ _ hy]
    · rw [judgeZone_trips rfl hst hn]
      exact zone_tripped_ne h k hy _ _

theorem calm_judgeZone (z : Zone) : Calm (Engine.judgeZone t k r e z) := by
  unfold Engine.judgeZone
  dsimp only
  split
  · exact h
  · split
    · exact calm_hand (calm_dropPending (calm_putZone h _ _) _) _
    · exact calm_enterTrip h _ _ _ _ _

theorem zone_judgeOthers {l : List Zone} {z : Zone} (hz : z ∉ l) :
    (l.foldl (Engine.judgeZone t k r) e).zone z = e.zone z ∧ Calm (l.foldl (Engine.judgeZone t k r) e) :=
  List.foldlRecOn (motive := fun x : Engine => x.zone z = e.zone z ∧ Calm x) _ _ ⟨rfl, h⟩ fun _ ⟨hx, hc⟩ y hy =>
    ⟨(zone_judgeZone_ne hc k r (ne_of_mem_of_not_mem hy hz)).trans hx, calm_judgeZone hc k r y⟩

/-- Outside READY a zone with a reserve that enters a trip awaits its start (R141). -/
theorem awaits_judgeZones {z : Zone} {st : ZoneState}
    (hst : zoneNext (t.zone z).limits (Bank.nth r z.idx) (e.zone z).state = st) (hne : st ≠ (e.zone z).state)
    (htrip : st = .highTrip ∨ st = .lowTrip) (hr : (t.zone z).reserve ≠ none) : ((e.judgeZones t k r).zone z).Awaits := by
  obtain ⟨l, l', hl, hl', hall⟩ := judgeZones_around z
  obtain ⟨hzone, hcalm⟩ := zone_judgeOthers h (t := t) k r hl
  have hn : st ≠ .normal := by rcases htrip with htrip | htrip <;> rw [htrip] <;> decide
  rw [hall, (zone_judgeOthers (calm_judgeZone hcalm k r z) k r hl').1,
    judgeZone_trips (by rw [hzone]; exact hst) (by rw [hzone]; exact hne) hn]
  exact awaits_tripped hcalm k htrip hr _

end

/-- A reserve start that falls due at a scan's end outside READY is held pending (R141, R149). -/
theorem awaits_endScan {s : State} {z : Zone} (hne : s.zoneNow z ≠ (s.eng.zone z).state)
    (htrip : s.zoneNow z = .highTrip ∨ s.zoneNow z = .lowTrip) (hr : (s.tab.zone z).reserve ≠ none) (h : Calm s.eng)
    (k : ScanKind) (f : Feedback) (ord : ScanOrder) : ((s.endScan k f ord).eng.zone z).Awaits := by
  by_cases hk : k = .parked
  · subst hk
    have hstate := (keepsTrip_verdicts z s.eng s.tab s.sbe.formReadings).state
    rw [endScan_parked_eng]
    exact awaits_judgeZones (calm_verdicts h _ _) _ _ (by rw [hstate]; rfl) (by rw [hstate]; exact hne) htrip hr
  · obtain ⟨a, ha, hstate, hzones⟩ := fullScanEnd_calm h s.tab (s.scanInput f ord)
    have hzone : (s.endScan k f ord).eng.zone z = (a.judgeZones s.tab (Engine.grantScan s.tab) s.sbe.formReadings).zone z := by
      rw [Engine.zone, (endScan_zones s hk f ord).1, hzones]
      rfl
    rw [hzone]
    exact awaits_judgeZones ha _ _ (by rw [hstate]; rfl) (by rw [hstate]; exact hne) htrip hr

end Sys2Proof.Machine
end

section
/-! O39: what follows where one zone changes its state at a full scan's end that judges the zones before the channels. -/

namespace Sys2Proof.Machine

open Sys2Proof

/-! ### What the judgement of the zones finds -/

/-- The orders, the regulator and the part as they were, and of every zone the state, the pending flag and the trip record. -/
structure ReadFrom (e a : Engine) : Prop where
  channels : a.channels = e.channels
  crg : a.crg = e.crg
  part : a.part = e.part
  state : ∀ z, (a.zone z).state = (e.zone z).state
  pending : ∀ z, (a.zone z).pending = (e.zone z).pending

theorem ReadFrom.order {e a : Engine} (h : ReadFrom e a) (c : ChannelNo) : a.order c = e.order c := by
  simp [Engine.order, Engine.channel, h.channels]

theorem KeepsWork.readFrom {e a : Engine} {t : Tables} {r : Bank Reading 6} (h : KeepsWork (e.verdicts t r) a) : ReadFrom e a := by
  obtain ⟨hchannels, hcrg, hpart, -⟩ := verdicts_leaves e t r
  refine ⟨h.channels.trans hchannels, h.crg.trans hcrg, h.part.trans hpart, fun z => ?_, fun z => ?_⟩ <;>
    rw [h.zone, zone_verdicts]

/-- The state a zone takes is judged from the state it had when the scan ended (R137). -/
theorem ReadFrom.zoneNow {s : State} {a : Engine} (h : ReadFrom s.eng a) (z : Zone) :
    zoneNext (s.tab.zone z).limits (Bank.nth s.sbe.formReadings z.idx) (a.zone z).state = s.zoneNow z := by
  rw [h.state, State.zoneNow]

theorem readFeedback_ost (e : Engine) (straps : Straps) (f : Feedback) : ∃ y, e.readFeedback straps f = { e with ost := y } := by
  unfold Engine.readFeedback
  refine List.foldlRecOn (motive := fun x : Engine => ∃ y, x = { e with ost := y }) _ _ ?_ fun x ⟨y, hy⟩ v _ => ?_
  · refine List.foldlRecOn (motive := fun x : Engine => ∃ y, x = { e with ost := y }) _ _ ⟨e.ost, rfl⟩ fun x ⟨y, hy⟩ o _ => ?_
    rw [hy]
    split <;> exact ⟨_, rfl⟩
  · rw [hy]
    exact ⟨_, rfl⟩

theorem verdicts_mar (e : Engine) (t : Tables) (r : Bank Reading 6) : (e.verdicts t r).mar = e.mar :=
  List.foldlRecOn (motive := fun x : Engine => x.mar = e.mar) _ _ rfl fun _ hb _ _ => hb

theorem equalizeFall_mar (e : Engine) (n : Nat) : ∃ y, e.equalizeFall n = { e with mar := { e.mar with comp := y } } := by
  unfold Engine.equalizeFall
  split <;> exact ⟨_, rfl⟩

/-- Where every order waits or sets, the judgement of the meters reaches none (R76, R77). -/
theorem readForWork_unmetered {e : Engine} (h : e.Unmetered) (t : Tables) (x : ScanInput) :
    ReadFrom e (e.readForWork t x).1 ∧ (e.readForWork t x).1.mar.claims = e.mar.claims
    ∧ (e.readForWork t x).1.mar.grants = e.mar.grants := by
  obtain ⟨comp, hcomp⟩ := equalizeFall_mar (e.verdicts t x.readings) 1
  have hkeeps := keepsWork_equalizeFall (e.verdicts t x.readings) 1
  have hunmetered : ((e.verdicts t x.readings).equalizeFall 1).Unmetered := fun c o ho =>
    h c o ((hkeeps.readFrom.order c).symm.trans ho)
  obtain ⟨ms, hms⟩ := judgeMeters_unmetered t (Engine.grantScan t) hunmetered (fun m => Bank.nth x.meters m.idx)
  obtain ⟨y, hy⟩ := readFeedback_ost { (e.verdicts t x.readings).equalizeFall 1 with meters := ms } t.straps x.feedback
  have hread : (e.readForWork t x).1 = { (e.verdicts t x.readings).equalizeFall 1 with meters := ms, ost := y } := by
    rw [Engine.readForWork, hms]
    exact hy
  have hmar := verdicts_mar e t x.readings
  rw [hread]
  refine ⟨KeepsWork.readFrom (hkeeps.trans ⟨rfl, rfl, rfl, rfl⟩), ?_, ?_⟩
  · show ((e.verdicts t x.readings).equalizeFall 1).mar.claims = _
    rw [hcomp, ← hmar]
  · show ((e.verdicts t x.readings).equalizeFall 1).mar.grants = _
    rw [hcomp, ← hmar]

theorem unmetered_of_runsAlone {e : Engine} {c : ChannelNo} {o : Order} (h : e.RunsAlone c o)
    (hp : o.phase = .waiting ∨ o.phase = .setting) : e.Unmetered := fun d o' ho' => by
  by_cases hd : d = c
  · subst hd
    cases h.order.symm.trans ho'
    exact hp
  · rw [h.idle d hd] at ho'
    cases ho'

/-- Where the one order runs on a VALID meter with valid inputs, the judgement of the meters does not reach it (R76). -/
theorem readForWork_counting {e : Engine} {t : Tables} {x : ScanInput} {c : ChannelNo} {o : Order} (h : e.RunsAlone c o)
    (hp : o.phase = .running) (hv : (e.meter (o.path t).meter).state = .valid)
    (hi : Bank.nth x.meters (o.path t).meter.idx ≠ none) : ReadFrom e (e.readForWork t x).1 := by
  obtain ⟨i, hi⟩ := Option.ne_none_iff_exists'.1 hi
  have := sameMeters_judges
  have hmeter := ((via_verdicts (R := SameMeters) e t x.readings).trans (via_equalizeFall _ 1)).it.meter (o.path t).meter
  have hfall := keepsWork_equalizeFall (e.verdicts t x.readings) 1
  have hjudge := keepsWork_judgeMeters (t := t) (i := fun m => Bank.nth x.meters m.idx) (h.same hfall.readFrom.channels) hp
    (by rw [hmeter]; exact hv) hi
  exact KeepsWork.readFrom ((hfall.trans hjudge).trans (keepsWork_readFeedback _ _ _))

/-! ### The scan end -/

/-- One zone alone changes its state at a full scan's end that judges the zones before the channels, the regulator DISABLED. -/
structure State.OneZoneChanges (s : State) (f : Feedback) (ord : ScanOrder) (z : Zone) : Prop where
  atEnd : s.atFullScanEnd f ord
  zonesFirst : ord.channelsFirst = []
  others : ∀ y, y ≠ z → s.zoneStands y
  changes : s.zoneNow z ≠ (s.eng.zone z).state
  comfort : s.eng.crg.state = .disabled

theorem driveOutputs_ost (e : Engine) (straps : Straps) : ∃ y, e.driveOutputs straps = { e with ost := y } := by
  have hstep (e : Engine) : ∃ y, e.handOverStep = { e with ost := y } := by
    unfold Engine.handOverStep
    split
    · exact ⟨e.ost, rfl⟩
    · dsimp only
      split <;> exact ⟨_, rfl⟩
  have hfold : ∃ y, allOutputs.foldl (fun e o => if outputPresent straps o then e.driveOutput o else e) e
      = { e with ost := y } := by
    refine List.foldlRecOn (motive := fun x : Engine => ∃ y, x = { e with ost := y }) _ _ ⟨e.ost, rfl⟩ fun x ⟨y, hy⟩ o _ => ?_
    obtain ⟨v, hv⟩ := driveOutput_eq x o
    rw [hv, hy]
    split <;> exact ⟨_, rfl⟩
  obtain ⟨y, hy⟩ := hfold
  obtain ⟨v, hv⟩ := hstep { e with ost := y }
  exact ⟨v, by rw [Engine.driveOutputs, hy, hv]⟩

/-- After such a scan end of a READY part stand the channels, zones and reports that its work leaves. -/
theorem endScan_worked {s : State} {f : Feedback} {ord : ScanOrder} (h : s.atFullScanEnd f ord) :
    ∃ y w, (s.endScan .full f ord).eng = { s.eng.workedOn s.tab (s.scanInput f ord) with ost := y, wake := w } := by
  obtain ⟨-, -, hpart, hdue, -, hcur⟩ := h
  generalize hx : s.scanInput f ord = x
  have hjudges := leavesOutput_judges
  have hmeters := leavesOutput_meters
  have hcurrents (o : OutputNo) (ho : outputPresent s.tab.straps o = true) :
      ((s.eng.readForWork s.tab x).1.output o).current < overcurrentBound := by
    rw [Engine.readForWork, current_readFeedback _ _ ho, ← hx]
    exact hcur o
  have hready : (s.eng.readForWork s.tab x).1.part = .ready := by
    have hvia : Via (LeavesOutput 0) s.eng (((s.eng.verdicts s.tab x.readings).equalizeFall 1).judgeMeters s.tab
        (Engine.grantScan s.tab) (fun m => Bank.nth x.meters m.idx)).1 :=
      ((via_verdicts _ _ _).trans (via_equalizeFall _ 1)).trans (via_judgeMeters (via_grantScan _) _ _ _)
    exact (keepsWork_readFeedback _ _ _).part.trans (hvia.it.part hpart)
  have hwork (o : OutputNo) : LeavesOutput o (s.eng.readForWork s.tab x).1 (s.eng.workedOn s.tab x) :=
    (via_judgeWork _ _ _ _ _).it
  have hworked := (hwork 0).part hready
  have hend := fullScanEnd_separate (x := x) (by rw [← hx]; exact hdue) hready hcurrents hworked
    fun o ho => by rw [(hwork o).output]; exact hcurrents o ho
  obtain ⟨y, hy⟩ := driveOutputs_ost (s.eng.workedOn s.tab x) s.tab.straps
  obtain ⟨w, hw⟩ := endScan_engine s f hdue
  rw [whenReady_ready hworked, hy, whenReady_ready (e := { s.eng.workedOn s.tab x with ost := y }) hworked] at hend
  rw [hw, hx, hend]
  exact ⟨y, w, rfl⟩

/-- The work of a scan end that judges the zones first, the regulator DISABLED before and after the channels' own work. -/
theorem judgeWork_zonesFirst {a b d : Engine} {t : Tables} {x : ScanInput} {f : ScanFigures} {before : Bank (Option Order) 6}
    (hfirst : x.order.channelsFirst = []) (hb : a.judgeZones t (Engine.grantScan t) x.readings = b)
    (hd : b.channelsWork t f before allChannels = d) (hbc : b.crg.state = .disabled) (hdc : d.crg.state = .disabled) :
    a.judgeWork t x f before = d := by
  unfold Engine.judgeWork
  dsimp only
  have hall : allChannels.filter (fun c => !([] : List ChannelNo).contains c) = allChannels := rfl
  have hnone : a.channelsWork t f before [] = a := rfl
  rw [hfirst, hall, hnone, hb, comfortJudge_disabled hbc, hd, comfortJudge_disabled hdc, ite_self]

/-- The channels, the zones and the reports are those of another engine. -/
structure LeftAs (u d : Engine) : Prop where
  channels : u.channels = d.channels
  zones : u.zones = d.zones
  reports : u.reports = d.reports

theorem LeftAs.order {u d : Engine} (h : LeftAs u d) (c : ChannelNo) : u.order c = d.order c := by
  simp [Engine.order, Engine.channel, h.channels]

theorem LeftAs.zone {u d : Engine} (h : LeftAs u d) (z : Zone) : u.zone z = d.zone z := by
  simp [Engine.zone, h.zones]

section
variable {s : State} {f : Feedback} {ord : ScanOrder} {z : Zone} (h : s.OneZoneChanges f ord z)
include h

/-- What the scan end leaves is what the judgement of the one zone and the channels' own work after it leave. -/
theorem endScan_oneZone {b d : Engine} (ha : ReadFrom s.eng (s.eng.readForWork s.tab (s.scanInput f ord)).1)
    (hb : Engine.judgeZone s.tab (Engine.grantScan s.tab) s.sbe.formReadings
      (s.eng.readForWork s.tab (s.scanInput f ord)).1 z = b)
    (hd : b.channelsWork s.tab ⟨(s.eng.readForWork s.tab (s.scanInput f ord)).2, .separate⟩ s.eng.ordersNow allChannels = d)
    (hbc : b.crg.state = .disabled) (hdc : d.crg.state = .disabled) : LeftAs (s.endScan .full f ord).eng d := by
  have hzones : (s.eng.readForWork s.tab (s.scanInput f ord)).1.judgeZones s.tab (Engine.grantScan s.tab)
      (s.scanInput f ord).readings = b := by
    refine (judgeZones_one fun y hy => ?_).trans hb
    rw [ha.state]
    exact h.others y hy
  have hwork : s.eng.workedOn s.tab (s.scanInput f ord) = d := judgeWork_zonesFirst h.zonesFirst hzones hd hbc hdc
  obtain ⟨y, w, hend⟩ := endScan_worked h.atEnd
  rw [hend, hwork]
  exact ⟨rfl, rfl, rfl⟩

end

/-! ### The channels' own work after the zones' -/

/-- A channel that was IDLE when the scan end began does nothing yet (R49). -/
theorem channelWork_new (e : Engine) (t : Tables) (k : Engine → Engine) (f : ScanFigures) (c : ChannelNo) :
    e.channelWork t k f c none = e := rfl

/-- A channel that has entered ENDING since the scan end began runs down (R140). -/
theorem channelWork_ending {e : Engine} {o b : Order} {r : RunDown} (t : Tables) (k : Engine → Engine) (f : ScanFigures)
    {c : ChannelNo} (ho : e.order c = some o) (hw : b.owner = o.owner) (hp : o.phase = .ending r) :
    e.channelWork t k f c (some b) = e.endingWork t k f c o r := by
  cases hb : b.phase <;> simp [Engine.channelWork, ho, hw, hp, hb]

theorem endingWork_separate (e : Engine) (t : Tables) (k : Engine → Engine) (heat : Bank (Option Int) 4) (c : ChannelNo)
    (o : Order) (r : RunDown) : e.endingWork t k ⟨heat, .separate⟩ c o r
      = e.putOrder c (some (o.ranDown r ((ScanFigures.mk heat .separate).counted (o.path t)))) := by
  simp [Engine.endingWork]

theorem nth_ordersNow (e : Engine) (c : ChannelNo) : Bank.nth e.ordersNow c = e.order c := by
  simp [Engine.ordersNow, Bank.nth, Engine.order, Engine.channel]

/-- Where every channel was IDLE when the scan end began, none works. -/
theorem channelsWork_new {s : Engine} (h : s.noOrders) (e : Engine) (t : Tables) (f : ScanFigures) :
    e.channelsWork t f s.ordersNow allChannels = e :=
  foldl_keeps _ _ _ fun c _ => by rw [nth_ordersNow, h c, channelWork_new]

/-! ### The offending order (R139) -/

theorem tripCause_eq (z : Zone) (st : ZoneState) :
    tripCause z st = ⟨if st = .blind then .zoneBlind else .zoneTrip, .zone z, none⟩ := by
  cases st <;> rfl

theorem offends_iff (z : Zone) (st : ZoneState) (p : PathEntry) : offends z st p = true
    ↔ st = .highTrip ∧ p.sink = z ∨ st = .lowTrip ∧ p.source = z ∨ st = .blind ∧ (p.source = z ∨ p.sink = z) := by
  cases st <;> simp [offends]

theorem offends_tripped {z : Zone} {st : ZoneState} {p : PathEntry} (h : offends z st p = true) : st ≠ .normal := by
  rintro rfl
  cases h

theorem offendsZone_host {o : Order} {t : Tables} {z : Zone} {st : ZoneState} (hw : o.owner = .host)
    (hp : o.phase = .waiting ∨ o.phase = .setting ∨ o.phase = .running) (h : offends z st (t.entry o.copy.path) = true) :
    o.offendsZone t z st = true := by
  rcases hp with hp | hp | hp <;> simp [Order.offendsZone, hp, hw, h]

/-- The one order there is ends if it offends, and its end leaves every other channel IDLE. -/
theorem tripped_offender {e e' : Engine} {t : Tables} {k : Engine → Engine} {z : Zone} {st : ZoneState} {c : ChannelNo}
    {o : Order} (hr : (t.zone z).reserve = none) (h : e.RunsAlone c o) (ho : o.offendsZone t z st = true)
    (he : e.imposeEnd t k c (tripCause z st) = e') (hidle : ∀ d, d ≠ c → e'.order d = none) :
    e.tripped t k z st = e'.handZone z := by
  rw [tripped_unreserved k hr]
  refine congrArg (Engine.handZone · z) (foldl_one_channel _ _ _ c (fun d hd => ?_) ?_ (fun d hd => ?_))
  · rw [Engine.endOffender, h.idle d hd]
  · rw [Engine.endOffender, h.order]
    exact (if_pos ho).trans he
  · rw [Engine.endOffender, hidle d hd]

/-- A channel withdrawn with a record handed for it: IDLE, its flag set (R75, R84, R91). -/
def Engine.recorded (e : Engine) (c : ChannelNo) (b : ReportBody) : Engine :=
  ((e.withdraw c).hand b).putChannel c ⟨none, true⟩

theorem recorded_noOrders {e : Engine} {c : ChannelNo} (h : ∀ d, d ≠ c → e.order d = none) (b : ReportBody) :
    (e.recorded c b).noOrders := fun d => by
  by_cases hd : c = d
  · subst hd
    exact congrArg Channel.order (Engine.channel_putChannel_self _ _ _)
  · exact (congrArg Channel.order (Engine.channel_putChannel_ne _ _ hd)).trans (h d fun k => hd k.symm)

/-- The end of the only order, WAITING and a host's, where no other set is claimed and no start pending (R75, R91). -/
theorem imposeEnd_lone {e : Engine} {t : Tables} {c : ChannelNo} {o : Order} (ho : e.order c = some o) (hw : o.owner = .host)
    (hp : o.phase = .waiting) (hclaims : ∀ g ∈ e.mar.claims, g.channel = c) (hpending : ∀ z, (e.zone z).pending = false)
    (g : Ending) : e.imposeEnd t (Engine.grantScan t) c g = e.recorded c (.completion (recordOf c o g)) := by
  have hnone : (e.recorded c (.completion (recordOf c o g))).mar.claims = [] := by
    show e.mar.claims.filter (fun s => decide (s.channel ≠ c)) = []
    simpa [List.filter_eq_nil_iff] using hclaims
  rw [imposeEnd_waiting t _ ho hp, endWaiting_host t _ hw, ← Engine.recorded, grantScan_nil hnone]
  exact servePending_none _ _ (e.recorded c _) _ hpending

/-- A report of another key that is handed leaves a report that stands. -/
theorem mem_handReport_of_ne {q : List Report} {r : Report} {b : ReportBody} (h : r ∈ q) (hk : r.key ≠ b.key) :
    r ∈ handReport q b := by
  unfold handReport
  split
  · exact List.mem_map.2 ⟨r, h, if_neg hk⟩
  · exact List.mem_append_left _ h

theorem pending_trigger (e : Engine) (z y : Zone) (st : ZoneState) (r : Reading) :
    ((e.trigger z st r).zone y).pending = (e.zone y).pending := by
  by_cases hy : z = y
  · subst hy
    rw [zone_trigger]
  · rw [zone_trigger_ne e hy]

/-- The engine whose meters, outputs and valves have been read, with the zone's entry to a trip or BLIND recorded (R147). -/
def State.triggered (s : State) (f : Feedback) (ord : ScanOrder) (z : Zone) : Engine :=
  (s.eng.readForWork s.tab (s.scanInput f ord)).1.trigger z (s.zoneNow z) (Bank.nth s.sbe.formReadings z.idx)

section
variable {s : State} {f : Feedback} {ord : ScanOrder} {z : Zone} (h : s.OneZoneChanges f ord z)
  (ha : ReadFrom s.eng (s.eng.readForWork s.tab (s.scanInput f ord)).1)
include ha

theorem triggered_order (c : ChannelNo) : (s.triggered f ord z).order c = s.eng.order c := ha.order c

theorem triggered_pending (y : Zone) : ((s.triggered f ord z).zone y).pending = (s.eng.zone y).pending :=
  (pending_trigger _ _ _ _ _).trans (ha.pending y)

theorem triggered_runsAlone {c : ChannelNo} {o : Order} (hruns : s.eng.RunsAlone c o) : (s.triggered f ord z).RunsAlone c o :=
  hruns.same ha.channels

include h

theorem triggered_comfort : (s.triggered f ord z).crg.state = .disabled := (congrArg Regulator.state ha.crg).trans h.comfort

theorem triggered_part : (s.triggered f ord z).part = .ready := ha.part.trans h.atEnd.2.2.1

/-- What the scan end leaves where the one zone enters a trip or BLIND. -/
theorem endScan_trip (hn : s.zoneNow z ≠ .normal) {b d : Engine}
    (hb : (s.triggered f ord z).tripped s.tab (Engine.grantScan s.tab) z (s.zoneNow z) = b)
    (hd : b.channelsWork s.tab ⟨(s.eng.readForWork s.tab (s.scanInput f ord)).2, .separate⟩ s.eng.ordersNow allChannels = d)
    (hbc : b.crg.state = .disabled) (hdc : d.crg.state = .disabled) : LeftAs (s.endScan .full f ord).eng d := by
  refine endScan_oneZone h ha ?_ hd hbc hdc
  rw [judgeZone_trips (ha.zoneNow z) (by rw [ha.state]; exact h.changes) hn,
    Engine.wakeUp_ready _ (ha.part.trans h.atEnd.2.2.1)]
  exact hb

end

section
variable {s : State} {f : Feedback} {ord : ScanOrder} {z : Zone} (h : s.OneZoneChanges f ord z)
  {c : ChannelNo} {o : Order} (hruns : s.eng.RunsAlone c o) (hw : o.owner = .host)
  (hr : (s.tab.zone z).reserve = none) (hoff : offends z (s.zoneNow z) (s.tab.entry o.copy.path) = true)
include h hruns hw hr hoff

/-- A WAITING order that offends the zone ends at once with its record (R75, R139). -/
theorem waitingOffender_ends (hp : o.phase = .waiting) (hpending : ∀ y, (s.eng.zone y).pending = false)
    (hclaims : ∀ g ∈ s.eng.mar.claims, s.eng.order g.channel ≠ none) :
    (s.endScan .full f ord).eng.order c = none ∧ ((s.endScan .full f ord).eng.channel c).recordQueued = true
    ∧ ∃ n, ⟨.completion (recordOf c o (tripCause z (s.zoneNow z))), n⟩ ∈ (s.endScan .full f ord).eng.reports := by
  obtain ⟨ha, hac, -⟩ := readForWork_unmetered (unmetered_of_runsAlone hruns (.inl hp)) s.tab (s.scanInput f ord)
  have honly : ∀ g ∈ (s.triggered f ord z).mar.claims, g.channel = c := fun g hg => by
    by_contra hne
    exact hclaims g (hac ▸ hg) (hruns.idle _ hne)
  have htrig := triggered_runsAlone (z := z) ha hruns
  have hpend (y : Zone) := (triggered_pending (z := z) ha y).trans (hpending y)
  have hcomfort := triggered_comfort h ha
  have hleft {b d : Engine} := endScan_trip h ha (offends_tripped hoff) (b := b) (d := d)
  generalize s.triggered f ord z = e at honly htrig hpend hcomfort hleft
  have himposed := imposeEnd_lone (t := s.tab) htrig.order hw hp honly hpend (tripCause z (s.zoneNow z))
  have hidle := recorded_noOrders htrig.idle (.completion (recordOf c o (tripCause z (s.zoneNow z))))
  have htripped := tripped_offender hr htrig (offendsZone_host hw (.inl hp) hoff) himposed fun d _ => hidle d
  have hu := hleft htripped (channelsWork_idle (e := (e.recorded c _).handZone z) hidle _ _ _ _) hcomfort hcomfort
  obtain ⟨n, hn⟩ := mem_handReport e.reports (.completion (recordOf c o (tripCause z (s.zoneNow z))))
  refine ⟨(hu.order c).trans (hidle c), ?_, n, ?_⟩
  · rw [Engine.channel, hu.channels]
    exact congrArg Channel.recordQueued (Engine.channel_putChannel_self (e.withdraw c) c ⟨none, true⟩)
  · rw [hu.reports]
    exact mem_handReport_of_ne hn (ReportKey.noConfusion ·)

/-- A SETTING or RUNNING order that offends the zone runs down to its end from this scan end on (R75, R139, R140). -/
theorem activeOffender_ends (ha : ReadFrom s.eng (s.eng.readForWork s.tab (s.scanInput f ord)).1)
    (hp : o.phase = .setting ∨ o.phase = .running) (hn : (s.tab.entry o.copy.path).runDown ≠ 0) :
    ∃ o', (s.endScan .full f ord).eng.order c = some o' ∧ o'.endsWith (tripCause z (s.zoneNow z)) := by
  have htrig := triggered_runsAlone (z := z) ha hruns
  have hcomfort := triggered_comfort h ha
  have hleft {b d : Engine} := endScan_trip h ha (offends_tripped hoff) (b := b) (d := d)
  generalize s.triggered f ord z = e at htrig hcomfort hleft
  have himposed := (imposeEnd_active s.tab (Engine.grantScan s.tab) htrig.order hp (tripCause z (s.zoneNow z))).trans
    (enterEnd_runs s.tab _ hn (regulatorTakes_host hw _) false)
  have hputs := htrig.putOrder (o.endingFor s.tab (tripCause z (s.zoneNow z)) false)
  have htripped := tripped_offender hr htrig (offendsZone_host hw (.inr hp) hoff) himposed hputs.idle
  have hother (e : Engine) (f : ScanFigures) (d : ChannelNo) (hd : d ≠ c) :
      e.channelWork s.tab (Engine.grantScan s.tab) f d (Bank.nth s.eng.ordersNow d) = e := by
    rw [nth_ordersNow, hruns.idle d hd, channelWork_new]
  have hown (heat : Bank (Option Int) 4) := (channelWork_ending s.tab (Engine.grantScan s.tab) ⟨heat, .separate⟩ (b := o)
    (e := (e.putOrder c _).handZone z) hputs.order rfl rfl).trans (endingWork_separate ..)
  rw [← hruns.order, ← nth_ordersNow] at hown
  have hu := hleft htripped (foldl_one_channel _ _ _ c (hother _ _) (hown _) (hother _ _)) hcomfort hcomfort
  exact ⟨_, (hu.order c).trans (Engine.order_putOrder_self _ _ _), _, rfl, rfl⟩

end

/-! ### The reserve start (R141) -/

/-- A DISABLED regulator stays so at the notice of a reserve start (R161). -/
theorem noticeReserve_disabled {e : Engine} (h : e.crg.state = .disabled) (c : ChannelNo) : e.noticeReserve c = e := by
  unfold Engine.noticeReserve
  split
  · rw [h, RegState.afterNotice, ← h]
    rfl
  · rfl

/-- An order as it was taken, waiting still or granted. -/
structure Order.StartedAs (x o : Order) : Prop where
  owner : x.owner = o.owner
  cls : x.cls = o.cls
  tag : x.tag = o.tag
  firstSlot : x.firstSlot = o.firstSlot
  copy : x.copy = o.copy
  phase : x.phase = .waiting ∨ x.phase = .setting

theorem startedAs_prefetchOrder {x o : Order} (h : x.StartedAs o) (e : Engine) (t : Tables) :
    (e.prefetchOrder t x).StartedAs o := by
  unfold Engine.prefetchOrder Engine.prefetched
  split
  · split <;> exact ⟨h.owner, h.cls, h.tag, h.firstSlot, h.copy, h.phase⟩
  · exact h

/-- An order taken where nothing is claimed or held: it is granted or waits, and no zone and nothing of the regulator
changes (R53, R99). -/
theorem takeOrder_unclaimed {e : Engine} (hclaims : e.mar.claims = []) (hgrants : e.mar.grants = []) (t : Tables)
    (c : ChannelNo) {o : Order} (hp : o.phase = .waiting) :
    (∃ x, (e.takeOrder t (Engine.grantScan t) c o).order c = some x ∧ x.StartedAs o)
    ∧ (e.takeOrder t (Engine.grantScan t) c o).zones = e.zones ∧ (e.takeOrder t (Engine.grantScan t) c o).crg = e.crg := by
  have hsubmit : ((e.putOrder c (some o)).submitBack t c o).mar.claims = [claimSetOf t c o] := by
    rw [submitBack_nil (e := e.putOrder c (some o)) t c o hclaims]
    rfl
  have horder : ((e.putOrder c (some o)).submitBack t c o).order c = some o := Engine.order_putOrder_self _ _ _
  unfold Engine.takeOrder Engine.prefetch
  rw [grantScan_single hsubmit (.inr hgrants)]
  generalize hs : (e.putOrder c (some o)).submitBack t c o = e1 at horder
  have hleft : e1.zones = e.zones ∧ e1.crg = e.crg := by
    rw [← hs]
    exact ⟨rfl, rfl⟩
  have hsettled : (∃ x, (e1.settle t (claimSetOf t c o)).order c = some x ∧ x.StartedAs o)
      ∧ (e1.settle t (claimSetOf t c o)).zones = e.zones ∧ (e1.settle t (claimSetOf t c o)).crg = e.crg := by
    rcases settle_cases e1 t (claimSetOf t c o) with hgranted | ⟨m, hwaits⟩
    · obtain ⟨hzones, hcrg⟩ := grant_leaves e1 t (claimSetOf t c o)
      rw [hgranted]
      refine ⟨⟨o.granted t, ?_, rfl, rfl, rfl, rfl, rfl, .inr rfl⟩, hzones.trans hleft.1, hcrg.trans hleft.2⟩
      rw [order_grant, if_pos (show (claimSetOf t c o).channel = c from rfl), horder]
      rfl
    · rw [hwaits]
      exact ⟨⟨o, horder, rfl, rfl, rfl, rfl, rfl, .inl hp⟩, hleft⟩
  obtain ⟨⟨x, hx, hstarted⟩, hzones, hcrg⟩ := hsettled
  have hmap := mapOrder_leaves (e1.settle t (claimSetOf t c o)) c
  refine ⟨⟨_, ?_, startedAs_prefetchOrder hstarted (e1.settle t (claimSetOf t c o)) t⟩, (hmap _).1.trans hzones,
    (hmap _).2.trans hcrg⟩
  rw [order_mapOrder, if_pos rfl, hx]
  rfl

section
variable {s : State} {f : Feedback} {ord : ScanOrder} {z : Zone} (h : s.OneZoneChanges f ord z) (hidle : s.eng.noOrders)
include h hidle

/-- What the scan end leaves where the trip of a zone with a reserve finds every channel IDLE and no start pending: the
reserve start that falls due (R141). -/
theorem endScan_reserveDue (htrip : s.zoneNow z = .highTrip ∨ s.zoneNow z = .lowTrip)
    (hpending : (s.eng.zone z).pending = false) {r : Reserve} (hr : (s.tab.zone z).reserve = some r) {b : Engine}
    (hb : (s.triggered f ord z).startReserve s.tab (Engine.grantScan s.tab) z r = b) (hbc : b.crg.state = .disabled) :
    LeftAs (s.endScan .full f ord).eng (b.handZone z) := by
  obtain ⟨ha, -, -⟩ := readForWork_unmetered (unmetered_of_noOrders hidle) s.tab (s.scanInput f ord)
  have htrig : (s.triggered f ord z).noOrders := fun c => (triggered_order ha c).trans (hidle c)
  have hread : (s.eng.readForWork s.tab (s.scanInput f ord)).1.noOrders := fun c => (ha.order c).trans (hidle c)
  have hn : s.zoneNow z ≠ .normal := by rcases htrip with htrip | htrip <;> rw [htrip] <;> decide
  have houtcome : ((s.triggered f ord z).zone z).trip.outcome = .none := by
    rw [State.triggered, zone_trigger]
    show Engine.triggerOutcome _ z = .none
    rw [triggerOutcome_idle hread, ha.pending, hpending]
    rfl
  have hdue : (s.triggered f ord z).tripped s.tab (Engine.grantScan s.tab) z (s.zoneNow z) = b.handZone z := by
    rw [tripped_reserved _ hr, houtcome, startFallsDue_none htrip, if_pos rfl, endOffenders_idle htrig,
      reserveDue_idle (ownReserve_idle htrig z) (triggered_part h ha) (htrig _), hb]
  exact endScan_trip h ha hn hdue (channelsWork_new hidle _ _ _) hbc hbc

end

/-! What the start does where nothing is claimed or held and the regulator is DISABLED. -/

section
variable {e : Engine} (hcomfort : e.crg.state = .disabled) {t : Tables} {z : Zone} {r : Reserve}
include hcomfort

theorem startReserve_fails {g : Ending} (hf : e.fetchFirst t (.reserve z) 0 r.slot = .error g) (k : Engine → Engine) :
    e.startReserve t k z r = e.setOutcome z (.ended g.cause 0) := by
  rw [startReserve_error hf, noticeReserve_disabled hcomfort]

variable (hclaims : e.mar.claims = []) (hgrants : e.mar.grants = [])
include hclaims hgrants

theorem startReserve_made {x : Copy} (hf : e.fetchFirst t (.reserve z) 0 r.slot = .ok x) :
    (∃ o, (e.startReserve t (Engine.grantScan t) z r).order r.channel = some o
      ∧ o.StartedAs (newOrder (.reserve z) 0 0 (some r.slot) x 0))
    ∧ ((e.startReserve t (Engine.grantScan t) z r).zone z).trip.outcome = .started
    ∧ (e.startReserve t (Engine.grantScan t) z r).crg = e.crg := by
  obtain ⟨horder, hzones, hcrg⟩ := takeOrder_unclaimed (e := e.setOutcome z .started) hclaims hgrants t r.channel
    (o := newOrder (.reserve z) 0 0 (some r.slot) x 0) rfl
  rw [startReserve_ok hf, noticeReserve_disabled hcomfort]
  refine ⟨horder, ?_, hcrg⟩
  rw [Engine.zone, hzones]
  exact congrArg (fun x : ZoneRec => x.trip.outcome) (Engine.zone_putZone_self e z _)

theorem startReserve_comfort : (e.startReserve t (Engine.grantScan t) z r).crg.state = .disabled := by
  cases hf : e.fetchFirst t (.reserve z) 0 r.slot with
  | error g =>
    rw [startReserve_fails hcomfort hf]
    exact hcomfort
  | ok x =>
    rw [(startReserve_made hcomfort hclaims hgrants hf).2.2]
    exact hcomfort

end

/-- What the start has fetched is what is fetched after the scan end: the start changes the state of no zone. -/
theorem fetchFirst_handZone {u e : Engine} {t : Tables} {z : Zone} {r : Reserve}
    (hu : LeftAs u ((e.startReserve t (Engine.grantScan t) z r).handZone z)) (w : Owner) (k : Fin 4) (i : SlotNo) :
    e.fetchFirst t w k i = u.fetchFirst t w k i := by
  refine fetchFirst_congr (funext fun y => ?_) _ _ _ _
  show _ = (u.zone y).state
  rw [hu.zone, zone_handZone, (grants_startReserve _ _ _ _).state]
  rfl

section
variable {s : State} {f : Feedback} {ord : ScanOrder} {z : Zone} (h : s.OneZoneChanges f ord z) (hidle : s.eng.noOrders)
  (hfree : s.eng.mar.claims ++ s.eng.mar.grants = []) (htrip : s.zoneNow z = .highTrip ∨ s.zoneNow z = .lowTrip)
  (hpending : (s.eng.zone z).pending = false) {r : Reserve} (hr : (s.tab.zone z).reserve = some r)
include h hidle hfree htrip hpending hr

/-- The reserve start that falls due, in an engine in which nothing is claimed or held, and what the scan end leaves of it. -/
theorem endScan_startReserve : ∃ e : Engine, e.crg.state = .disabled ∧ e.mar.claims = [] ∧ e.mar.grants = []
    ∧ e.order r.channel = none
    ∧ LeftAs (s.endScan .full f ord).eng ((e.startReserve s.tab (Engine.grantScan s.tab) z r).handZone z) := by
  obtain ⟨ha, hclaims, hgrants⟩ := readForWork_unmetered (unmetered_of_noOrders hidle) s.tab (s.scanInput f ord)
  obtain ⟨hnoClaims, hnoGrants⟩ := List.append_eq_nil_iff.1 hfree
  have hcomfort := triggered_comfort h ha
  have hc : (s.triggered f ord z).mar.claims = [] := hclaims.trans hnoClaims
  have hg : (s.triggered f ord z).mar.grants = [] := hgrants.trans hnoGrants
  exact ⟨_, hcomfort, hc, hg, (triggered_order ha _).trans (hidle _),
    endScan_reserveDue h hidle htrip hpending hr rfl (startReserve_comfort hcomfort hc hg)⟩

/-- A reserve start on an IDLE channel whose first segment is good is made (R54, R141). -/
theorem reserveStart_made {x : Copy} (hx : (s.endScan .full f ord).eng.fetchFirst s.tab (.reserve z) 0 r.slot = .ok x) :
    ((s.endScan .full f ord).eng.zone z).trip.outcome = .started
    ∧ ∃ o, (s.endScan .full f ord).eng.order r.channel = some o
      ∧ o.StartedAs (newOrder (.reserve z) 0 0 (some r.slot) x 0) := by
  obtain ⟨e, hcomfort, hclaims, hgrants, -, hu⟩ := endScan_startReserve h hidle hfree htrip hpending hr
  rw [← fetchFirst_handZone hu] at hx
  obtain ⟨⟨o, ho, hstarted⟩, houtcome, -⟩ := startReserve_made hcomfort hclaims hgrants hx
  exact ⟨by rw [hu.zone, zone_handZone, houtcome], o, (hu.order _).trans ho, hstarted⟩

/-- A reserve start that fails at its first segment leaves its channel IDLE and the outcome ENDED (R54, R141). -/
theorem reserveStart_failed {g : Ending} (hg : (s.endScan .full f ord).eng.fetchFirst s.tab (.reserve z) 0 r.slot = .error g) :
    ((s.endScan .full f ord).eng.zone z).trip.outcome = .ended g.cause 0
    ∧ (s.endScan .full f ord).eng.order r.channel = none := by
  obtain ⟨e, hcomfort, -, -, hnone, hu⟩ := endScan_startReserve h hidle hfree htrip hpending hr
  rw [← fetchFirst_handZone hu] at hg
  rw [startReserve_fails hcomfort hg] at hu
  refine ⟨?_, (hu.order _).trans hnone⟩
  rw [hu.zone, zone_handZone]
  exact congrArg (fun x : ZoneRec => x.trip.outcome) (Engine.zone_putZone_self e z _)

end

/-- A pending start is dropped as its zone returns to NORMAL, every channel IDLE (R144). -/
theorem pending_dropped {s : State} {f : Feedback} {ord : ScanOrder} {z : Zone} (h : s.OneZoneChanges f ord z)
    (hidle : s.eng.noOrders) (hn : s.zoneNow z = .normal) (hpending : (s.eng.zone z).pending = true) :
    ((s.endScan .full f ord).eng.zone z).pending = false
    ∧ ((s.endScan .full f ord).eng.zone z).trip.outcome = .notStarted := by
  obtain ⟨ha, -, -⟩ := readForWork_unmetered (unmetered_of_noOrders hidle) s.tab (s.scanInput f ord)
  have hreturns := judgeZone_returns (k := Engine.grantScan s.tab) (ha.zoneNow z) (by rw [ha.state]; exact h.changes) hn
  have hcomfort : (s.eng.readForWork s.tab (s.scanInput f ord)).1.crg.state = .disabled :=
    (congrArg Regulator.state ha.crg).trans h.comfort
  have hleft {b d : Engine} := endScan_oneZone h ha (b := b) (d := d)
  have hpend := (ha.pending z).trans hpending
  generalize (s.eng.readForWork s.tab (s.scanInput f ord)).1 = a at hreturns hcomfort hleft hpend
  have hdropped : a.returnNormal z = ((((a.putZone z { a.zone z with state := .normal }).setPending z false).setOutcome z
      .notStarted).handZone z) := by
    simp [Engine.returnNormal, Engine.dropPending, hpend]
  have hu := hleft (hreturns.trans hdropped) (channelsWork_new hidle _ _ _) hcomfort hcomfort
  rw [hu.zone, zone_handZone]
  constructor <;> simp [Engine.setPending, Engine.setOutcome]

/-! ### The scan end and the zones (O39) -/

/-- The scan of a full scan's end is a full one. -/
theorem kind_of_atFullScanEnd {s : State} {f : Feedback} {ord : ScanOrder} {k : ScanKind} (h : s.atFullScanEnd f ord)
    (hscan : s.sbe.scan = some ⟨k, []⟩) : k = .full := by
  rw [h.2.1] at hscan
  cases hscan
  rfl

/-- An order that stands alone where the engine is settled on its channel. -/
theorem runsAlone_of_settledOn {e : Engine} {c : ChannelNo} {o : Order} (h : e.settledOn c) (ho : e.order c = some o) :
    e.RunsAlone c o := ⟨ho, h.1⟩

theorem noOrders_of_settledOn {e : Engine} {c : ChannelNo} (h : e.settledOn c) (ho : e.order c = none) : e.noOrders :=
  fun d => if hd : d = c then hd ▸ ho else h.1 d hd

/-- Nothing is claimed or held where no channel runs an order and none without one claims or holds. -/
theorem unclaimed_of_settledOn {e : Engine} {c : ChannelNo} (h : e.settledOn c) (ho : e.order c = none) :
    e.mar.claims ++ e.mar.grants = [] :=
  List.eq_nil_iff_forall_not_mem.2 fun g hg => h.2.2 g hg (noOrders_of_settledOn h ho g.channel)

/-- Where the one order there is sets, or runs on a VALID meter with valid inputs, the judgement of the meters leaves it. -/
theorem readFrom_active {s : State} (f : Feedback) (ord : ScanOrder) {c : ChannelNo} {o : Order} (h : s.eng.RunsAlone c o)
    (hp : o.phase = .setting ∨ o.phase = .running ∧ (s.eng.meter (o.path s.tab).meter).state = .valid
      ∧ s.sbe.meterInputs (o.path s.tab).meter ≠ none) :
    ReadFrom s.eng (s.eng.readForWork s.tab (s.scanInput f ord)).1 := by
  rcases hp with hp | ⟨hp, hv, hi⟩
  · exact (readForWork_unmetered (unmetered_of_runsAlone h (.inr hp)) s.tab (s.scanInput f ord)).1
  · refine readForWork_counting h hp hv ?_
    rwa [nth_scanInput_meters]

/-- Settles O39: each zone is what its own judgement makes of it; what follows for orders and reserves is, outside READY, a
start held pending, and in READY what the judgement of the one zone that changes leaves to the channels. -/
theorem zonesJudged : Obligations.ZonesJudged := by
  intro s t f ord k z hrun hscan hexec
  obtain rfl : s.endScan k f ord = t := by
    injection (exec_scanEnd hrun hscan f ord).symm.trans hexec
  intro l r old new high low cooled warmed
  have hr : r = Bank.nth s.sbe.formReadings z.idx := congrArg (Bank.nth · z.idx) (scanOver_endScan s k f ord).readings
  have hjudged := judgedZone_endScan s k f ord z
  have hnow : s.zoneNow z = new := hjudged.state.symm
  have htable : new = zoneNext l r old := by
    rw [hr]
    exact hjudged.state
  rw [hnow, ← hr] at hjudged
  have hchanges (hne : new ≠ old) : s.zoneNow z ≠ (s.eng.zone z).state := by rwa [hnow]
  obtain ⟨hdepleted, hfull⟩ := verdicts_endScan s k f ord z
  rw [← hr] at hdepleted hfull
  have hhigh : atOrAbove r.hottest l.hardHigh = true ↔ high := atOrAbove_iff _ _
  have hlow : atOrBelow r.coldest l.hardLow = true ↔ low := atOrBelow_iff _ _
  have hcooled : atOrBelow r.hottest (l.hardHigh.map (· - l.hysteresis - 1)) = true ↔ cooled := atOrBelow_cooled_iff _ _ _
  have hwarmed : atOrAbove r.coldest (l.hardLow.map (· + l.hysteresis + 1)) = true ↔ warmed := atOrAbove_warmed_iff _ _ _
  refine ⟨fun h => htable.trans (zoneNext_unread h l old), fun h => ?table,
    fun hne => ⟨hjudged.report hne, fun hn =>
      ⟨hjudged.trigger hne hn, hjudged.hottest hne hn, hjudged.coldest hne hn, ?woken⟩⟩,
    fun hne htrip hreserve hpart hrests => ?pending,
    fun hend hfirst hothers hne hcomfort => ?ready,
    by rw [hdepleted]; exact atOrBelow_iff _ _, by rw [hfull]; exact atOrAbove_iff _ _⟩
  case table =>
    refine ⟨fun ho hh => ?_, fun ho hh hl => ?_, fun ho hh hl => ?_, fun ho hc => ?_, fun ho hc => ?_, fun ho hw => ?_,
      fun ho hw => ?_, fun ho => ?_⟩ <;> rw [htable, ho]
    · rw [zoneNext_normal h, if_pos (hhigh.2 hh)]
    · rw [zoneNext_normal h, if_neg (mt hhigh.1 hh), if_pos (hlow.2 hl)]
    · rw [zoneNext_normal h, if_neg (mt hhigh.1 hh), if_neg (mt hlow.1 hl)]
    · rw [zoneNext_highTrip h, if_pos (hcooled.2 hc)]
    · rw [zoneNext_highTrip h, if_neg (mt hcooled.1 hc)]
    · rw [zoneNext_lowTrip h, if_pos (hwarmed.2 hw)]
    · rw [zoneNext_lowTrip h, if_neg (mt hwarmed.1 hw)]
    · rw [zoneNext_blind h]
  case woken =>
    rintro hpart rfl
    exact roused_endScan hpart (hchanges hne) (by rwa [hnow]) f ord
  case pending =>
    have hnot : s.eng.part ≠ .ready := by rcases hpart with hp | hp <;> rw [hp] <;> decide
    obtain ⟨horders, hquiet, hlevels⟩ := hrests hnot
    exact awaits_endScan (hchanges hne) (by rwa [hnow]) hreserve ⟨hnot, horders, hquiet, hlevels⟩ k f ord
  case ready =>
    obtain rfl := kind_of_atFullScanEnd hend hscan
    have hone : s.OneZoneChanges f ord z := ⟨hend, hfirst, hothers, hchanges hne, hcomfort⟩
    intro cause
    have hcause : tripCause z (s.zoneNow z) = cause := by rw [hnow, tripCause_eq]
    refine ⟨?offender, ?reserve, fun hidle hn hpend => pending_dropped hone hidle (hnow.trans hn) hpend⟩
    case offender =>
      intro c o hsettled ho hw hnone p hoff
      have hruns := runsAlone_of_settledOn hsettled ho
      have hoffends : offends z (s.zoneNow z) (s.tab.entry o.copy.path) = true := by
        rw [hnow]
        exact (offends_iff _ _ _).2 hoff
      rw [← hcause]
      exact ⟨fun hp => waitingOffender_ends hone hruns hw hnone hoffends hp hsettled.2.1
          fun g hg => hsettled.2.2 g (List.mem_append_left _ hg),
        fun hp hn => activeOffender_ends hone hruns hw hnone hoffends (readFrom_active f ord hruns hp)
          (hp.imp id fun hp => hp.1) hn⟩
    case reserve =>
      intro c slot hsettled ho hreserve htrip
      have hidle := noOrders_of_settledOn hsettled ho
      have hfree := unclaimed_of_settledOn hsettled ho
      have hpend := hsettled.2.1 z
      have htripped : s.zoneNow z = .highTrip ∨ s.zoneNow z = .lowTrip := by
        rw [hnow]
        exact htrip
      refine ⟨fun x hx => ?_, fun g hg => reserveStart_failed hone hidle hfree htripped hpend hreserve hg⟩
      obtain ⟨houtcome, o, horder, h⟩ := reserveStart_made hone hidle hfree htripped hpend hreserve hx
      exact ⟨houtcome, o, horder, h.owner, h.cls, h.tag, h.firstSlot, h.copy, h.phase⟩

end Sys2Proof.Machine
end

section
/-! O31: SET CABIN TARGET takes whole tenths in range. -/

namespace Sys2Proof.Machine

open Sys2Proof

/-- A target in hundredths that is whole tenths in range is taken (R151, R152). -/
theorem answerTarget_taken {h : Int} (hr : 1400 ≤ h ∧ h ≤ 3000 ∧ h % 10 = 0) (s : State) : answerTarget h s
    = (s.putRegulator { s.eng.crg with target := h / 10 }).gives .ok (.cabinTarget (h / 10) s.eng.crg.state s.cabinMean) := by
  obtain ⟨hlow, hhigh, htenths⟩ := hr
  refine if_pos ⟨htenths, decide_eq_true ⟨?_, ?_⟩⟩ <;> omega

theorem answerTarget_refused {h : Int} (hr : ¬ (1400 ≤ h ∧ h ≤ 3000 ∧ h % 10 = 0)) (s : State) :
    answerTarget h s = s.says .badArgument := by
  refine if_neg fun ⟨htenths, hok⟩ => hr ?_
  obtain ⟨hlow, hhigh⟩ := of_decide_eq_true hok
  omega

/-- Settles O31: the value decides, and waking changes nothing of the regulator or of the CABIN reading. -/
theorem setCabinTarget : Obligations.SetCabinTarget := by
  intro s f h hs
  refine ⟨fun hr => ?_, fun hr => request_says hs rfl (answerTarget_refused hr _)⟩
  have hanswer := answerTarget_taken hr s.asTaken
  simp only [State.asTaken_eng, Engine.wakeUp_crg] at hanswer
  exact request_gives hs rfl hanswer

end Sys2Proof.Machine
end

section
/-! O50: an event of the plant changes the engine alone, and neither its part state nor the regulator's target and settings. -/

namespace Sys2Proof.Machine

open Sys2Proof

/-- The part state, the cabin target and the regulator's settings are as they were. -/
structure SameRegime (a b : Engine) : Prop where
  part : b.part = a.part
  target : b.crg.target = a.crg.target
  settings : b.crg.settings = a.crg.settings

theorem sameRegime_pends : Pends SameRegime where
  refl _ := ⟨rfl, rfl, rfl⟩
  trans h k := ⟨k.part.trans h.part, k.target.trans h.target, k.settings.trans h.settings⟩
  putChannel _ _ _ := ⟨rfl, rfl, rfl⟩
  putMar _ _ := ⟨rfl, rfl, rfl⟩
  putValve _ _ _ := ⟨rfl, rfl, rfl⟩
  setCircuit _ _ := ⟨rfl, rfl, rfl⟩
  putRegState _ _ := ⟨rfl, rfl, rfl⟩
  hand _ _ := ⟨rfl, rfl, rfl⟩
  setOutcome _ _ _ := ⟨rfl, rfl, rfl⟩
  clearPending _ _ := ⟨rfl, rfl, rfl⟩
  setPending _ _ := ⟨rfl, rfl, rfl⟩

theorem sameRegime_drives : Drives SameRegime where
  toBase := sameRegime_pends.toBase
  putMeter _ _ _ := ⟨rfl, rfl, rfl⟩
  putOst _ _ := ⟨rfl, rfl, rfl⟩

/-- What a row makes of the state when it acts on the engine while the part runs, READY or not. -/
structure ActsOnEngine (s t : State) : Prop where
  state : t = s.putEngine t.eng
  regime : SameRegime s.eng t.eng

theorem ActsOnEngine.refl (s : State) : ActsOnEngine s s := ⟨rfl, rfl, rfl, rfl⟩

theorem actsOnEngine_onEngine {s t : State} {f : Engine → Engine} (hf : Vias SameRegime f) (ht : s.onEngine f = .next t) :
    ActsOnEngine s t := by
  have hacts : ActsOnEngine s (s.putEngine (f s.eng)) := ⟨rfl, (hf s.eng).it⟩
  exact running_keeps (ActsOnEngine s) ht (.refl s) fun _ => hacts

theorem actsOnEngine_onReady {s t : State} {f : Engine → Engine} (hf : Vias SameRegime f) (ht : s.onReady f = .next t) :
    ActsOnEngine s t :=
  have := sameRegime_drives
  actsOnEngine_onEngine (via_whenReady f hf) ht

theorem actsOnEngine_plantEvent {s t : State} {c : Instr} (hc : plantEvent c = true) (ht : exec c s = .next t) :
    ActsOnEngine s t := by
  have := sameRegime_pends
  have := sameRegime_drives
  have hk := via_grantScan (R := SameRegime) s.tab
  cases c
  case meterHoldExpiry m => exact actsOnEngine_onEngine (fun _ => via_holdExpires hk _ _ _) ht
  case reservePendingStart c => exact actsOnEngine_onEngine (fun _ => via_servePending hk _ _ _) ht
  case segmentTimeLimit c => exact actsOnEngine_onEngine (fun _ => via_timeLimitReached hk _ _ _) ht
  case leadEnd c => exact actsOnEngine_onEngine (fun _ => via_leadEnds _ _ _) ht
  case waitLimitReached c => exact actsOnEngine_onEngine (fun _ => via_waitLimitReached hk _ _ _) ht
  case runDownEnd c => exact actsOnEngine_onEngine (fun _ => via_runDownReached hk _ _ _) ht
  case equalizeEnd => exact actsOnEngine_onEngine (via_equalizeIfOver _) ht
  case openLoad o => exact actsOnEngine_onReady (fun _ => via_openLoadReached _ _ _) ht
  case stall o => exact actsOnEngine_onReady (fun _ => via_stallReached _ _ _) ht
  case outputTestEnd o => exact actsOnEngine_onReady (fun _ => via_testEnds _ _ _) ht
  case handOverEnd => exact actsOnEngine_onReady (fun _ => via_handOverEnds _) ht
  case valveAtPosition v => exact actsOnEngine_onReady (fun _ => via_valveArrives hk _ _ _) ht
  case valveTravelTimeout v => exact actsOnEngine_onReady (fun _ => via_valveTimesOut hk _ _ _) ht
  case valveFeedbackLost v => exact actsOnEngine_onReady (fun _ => via_valveLosesFeedback hk _ _ _) ht
  case valveDrift v => exact actsOnEngine_onReady (fun _ => via_valveDrifts _ _ _) ht
  case valveTestFirstLeg v => exact actsOnEngine_onReady (fun _ => via_valveTestTurns _ _ _) ht
  case valveTestPass v => exact actsOnEngine_onReady (fun _ => via_valveTestPasses _ _ _) ht
  all_goals cases hc

/-- Settles O50: every event of the plant is a change of the engine that its operations allow. -/
theorem eventsLeaveAlone : Obligations.EventsLeaveAlone := by
  intro s t c hc ht
  obtain ⟨hstate, hpart, htarget, hsettings⟩ := actsOnEngine_plantEvent hc ht
  exact ⟨hstate, htarget, hsettings, hpart⟩

end Sys2Proof.Machine
end

section
/-! O59: every step keeps the reply places of both ports, and a snapshot exactly while a save is WRITING. -/

namespace Sys2Proof.Machine

open Sys2Proof

/-! ### The reply places of the system link (R180) -/

/-- A reply other than a taken request's, made while none waits. -/
theorem repliesOk_transmit_error {l : LinkPort} (h : l.repliesOk) (hw : l.waiting = none) {r : TxReply} (hr : r.ofSlot = false) :
    (l.transmit r).repliesOk := by
  obtain ⟨-, hslot, -⟩ := h
  cases hs : l.sending <;> simp_all [LinkPort.transmit, LinkPort.repliesOk]

/-- The reply of a request that takes the FREE slot, made while none waits. -/
theorem repliesOk_transmit_taken {l : LinkPort} (h : l.repliesOk) (hf : l.slot = .free) (hw : l.waiting = none) {r : TxReply}
    (hr : r.ofSlot = true) : ({ l with slot := .taken }.transmit r).repliesOk := by
  obtain ⟨-, hslot, -⟩ := h
  cases hs : l.sending <;> simp_all [LinkPort.transmit, LinkPort.repliesOk]

/-- A reply has left: the waiting one follows, and the slot is FREE if the reply was the taken request's. -/
theorem repliesOk_left {l : LinkPort} (h : l.repliesOk) {r : TxReply} (hs : l.sending = some r) :
    { l with slot := if r.ofSlot then .free else l.slot, sending := l.waiting, waiting := none }.repliesOk := by
  obtain ⟨-, hslot, honce⟩ := h
  cases hr : r.ofSlot <;> simp_all [LinkPort.repliesOk]

theorem repliesOk_errorReply {s : State} (h : s.link.repliesOk) (k q : Byte) (c : ReplyCode) :
    (s.errorReply k q c).link.repliesOk := by
  unfold State.errorReply
  split
  · exact h
  · rename_i hw
    exact repliesOk_transmit_error h (Option.not_isSome_iff_eq_none.1 hw) rfl

/-! ### The panel port (R163) -/

theorem placesOk_reply {p : PanelPort} (h : p.placesOk) (text : List Byte) (hw : p.waiting = none) : (p.reply text).placesOk := by
  unfold PanelPort.reply
  split
  · exact ⟨fun _ => hw, h.2⟩
  · rename_i hs
    exact ⟨fun hn => absurd (hs.symm.trans hn) (Option.some_ne_none _), h.2⟩

theorem placesOk_emptyLine {s : State} (h : s.panel.placesOk) : s.emptyLine.panel.placesOk := ⟨h.1, Nat.zero_le _⟩

theorem placesOk_takeLine {s : State} (h : s.panel.placesOk) (cs : List Byte) : (s.takeLine cs).panel.placesOk := by
  unfold State.takeLine
  split
  · exact h
  · rename_i hw
    exact placesOk_reply h _ (Option.not_isSome_iff_eq_none.1 hw)

theorem placesOk_rejectLine {s : State} (h : s.panel.placesOk) : s.rejectLine.panel.placesOk := by
  unfold State.rejectLine
  split
  · exact h
  · rename_i hw
    exact placesOk_reply h _ (Option.not_isSome_iff_eq_none.1 hw)

/-- A character ends the line, is passed over, joins a buffer that is not full, or marks the line overlong. -/
theorem placesOk_panelChar {s : State} (h : s.panel.placesOk) (b : Byte) : (s.panelChar b).panel.placesOk := by
  unfold State.panelChar
  split
  · split
    · exact placesOk_rejectLine (placesOk_emptyLine h)
    · split
      · exact h
      · exact placesOk_takeLine (placesOk_emptyLine h) _
  · split
    · exact h
    · split
      · exact h
      · split
        · rename_i hroom
          exact ⟨h.1, by simpa using hroom⟩
        · exact ⟨h.1, h.2⟩

theorem placesOk_panelChars {s : State} (h : s.panel.placesOk) (bs : List Byte) : (s.panelChars bs).panel.placesOk := by
  have hfold : (bs.foldl State.panelChar s).panel.placesOk :=
    List.foldlRecOn (motive := fun x : State => x.panel.placesOk) _ _ h fun _ hx b _ => placesOk_panelChar hx b
  unfold State.panelChars
  split
  · exact h
  all_goals exact hfold

/-! ### What becomes of a request, and what it keeps -/

/-- A completed frame keeps what the waking, an error reply and the answer of a taken request keep. -/
theorem frameTaken_keeps {P : State → Prop} {kind seq : Byte} {judge : State → Answer} (hw : ∀ s, P s → P s.frameComplete)
    (he : ∀ s k q c, P s → P (s.errorReply k q c))
    (ha : ∀ s, P s → s.link.slot = .free → s.link.waiting = none → P ((judge s.takeSlot).sent kind seq)) {s : State} (h : P s) :
    P (s.frameTaken kind seq judge) := by
  unfold State.frameTaken
  dsimp only
  split
  · exact he _ _ _ _ (hw s h)
  · rename_i hslot
    split
    · exact hw s h
    · rename_i hwait
      exact ha _ (hw s h) hslot (Option.not_isSome_iff_eq_none.1 hwait)

/-- A judgement answers with the owner's state or with the one it was given. -/
theorem judgeRequest_keeps {P : State → Prop} {owner : State → Answer} {s : State} (h : P s) (ho : P (owner s).state)
    (kind : Byte) (fits : Bool) : P (s.judgeRequest kind fits owner).state := by
  unfold State.judgeRequest
  split
  · exact h
  · split
    · exact ho
    · exact h

theorem request_keeps {P : State → Prop} {s t : State} {kind : Byte} {f : Frame} {owner : State → Answer}
    (hr : ∀ s rx, P s → P (s.putRx rx)) (hw : ∀ s, P s → P s.frameComplete) (he : ∀ s k q c, P s → P (s.errorReply k q c))
    (ha : ∀ s, P s → s.link.slot = .free → s.link.waiting = none →
      P ((s.takeSlot.judgeRequest kind f.lengthFits owner).sent kind f.seq))
    (h : P s) (ht : s.request kind f owner = .next t) : P t :=
  running_keeps P ht h fun h => frameArrives_keeps hr (fun s => he s _ _ _) hw (fun _ h => frameTaken_keeps hw he ha h) h

theorem cfc_errorReply (s : State) (k q : Byte) (c : ReplyCode) : (s.errorReply k q c).cfc = s.cfc := by
  unfold State.errorReply
  split <;> rfl

theorem panel_errorReply (s : State) (k q : Byte) (c : ReplyCode) : (s.errorReply k q c).panel = s.panel := by
  unfold State.errorReply
  split <;> rfl

/-! ### The owners and the snapshot (R193) -/

/-- The owners of the requests on orders and reports leave control alone. -/
theorem cfc_orderOwner (s : State) :
    (∀ c l k t w, (answerStart c l k t w s).state.cfc = s.cfc) ∧ (∀ c, (answerHalt c s).state.cfc = s.cfc)
    ∧ (∀ c, (answerQuery c s).state.cfc = s.cfc) ∧ (answerFetch s).state.cfc = s.cfc := by
  refine ⟨fun c l k t w => ?start, fun c => ?halt, fun c => ?query, ?fetch⟩
  case start =>
    unfold answerStart
    repeat' split
    all_goals rfl
  case halt =>
    unfold answerHalt
    repeat' split
    all_goals rfl
  case query =>
    unfold answerQuery
    repeat' split
    all_goals rfl
  case fetch =>
    unfold answerFetch
    split <;> rfl

/-- The owners of the requests on tables leave control alone. -/
theorem cfc_tableOwner (s : State) :
    (∀ b, (answerWriteSegments b s).state.cfc = s.cfc) ∧ (∀ a b, (answerReadSegments a b s).state.cfc = s.cfc)
    ∧ (∀ n w, (answerWritePath n w s).state.cfc = s.cfc) ∧ (∀ n, (answerReadPath n s).state.cfc = s.cfc)
    ∧ (∀ n w, (answerWriteZone n w s).state.cfc = s.cfc) ∧ (∀ n, (answerReadZone n s).state.cfc = s.cfc)
    ∧ (∀ es, (answerWriteSensorMap es s).state.cfc = s.cfc) ∧ ∀ a x y, (answerChecksum a x y s).state.cfc = s.cfc := by
  refine ⟨fun b => ?writeSegments, fun a b => ?readSegments, fun n w => ?writePath, fun n => ?readPath, fun n w => ?writeZone,
    fun n => ?readZone, fun es => ?map, fun a x y => ?checksum⟩
  case writeSegments =>
    unfold answerWriteSegments
    split
    · rfl
    · split
      · rfl
      · exact State.putTables_cfc _ _
  case readSegments =>
    unfold answerReadSegments
    split <;> rfl
  case writePath =>
    unfold answerWritePath
    repeat' split
    all_goals rfl
  case readPath =>
    unfold answerReadPath
    split <;> rfl
  case writeZone =>
    unfold answerWriteZone
    split
    · rfl
    · split
      · rfl
      · split
        · rfl
        · exact State.takeZoneWrite_cfc _ _ _
  case readZone =>
    unfold answerReadZone
    split <;> rfl
  case map =>
    unfold answerWriteSensorMap
    repeat' split
    all_goals rfl
  case checksum =>
    unfold answerChecksum
    split <;> rfl

/-- The owners of the requests on movers and comfort leave control alone. -/
theorem cfc_moverOwner (s : State) :
    (∀ r b, (answerExchange r b s).state.cfc = s.cfc) ∧ (∀ i, (answerTest i s).state.cfc = s.cfc)
    ∧ (∀ h, (answerTarget h s).state.cfc = s.cfc) ∧ (∀ g, (answerComfortOn g s).state.cfc = s.cfc)
    ∧ ∀ b, (answerPanelLock b s).state.cfc = s.cfc := by
  refine ⟨fun r b => ?exchange, fun i => ?test, fun h => ?target, fun g => ?comfortOn, fun b => ?panelLock⟩
  case exchange =>
    unfold answerExchange
    split <;> rfl
  case test =>
    unfold answerTest answerOutputTest answerValveTest
    repeat' split
    all_goals rfl
  case target =>
    unfold answerTarget
    dsimp only
    split <;> rfl
  case comfortOn =>
    unfold answerComfortOn
    repeat' split
    all_goals rfl
  case panelLock =>
    unfold answerPanelLock
    split <;> rfl

/-- The owners of configuration control leave save and snapshot as they are, but for the one that begins a save. -/
theorem saveOk_controlOwner {s : State} (h : s.cfc.saveOk) :
    (∀ t b, (answerTuning t b s).state.cfc.saveOk) ∧ (∀ m, (answerMode m s).state.cfc.saveOk)
    ∧ (∀ l, (answerSetLock l s).state.cfc.saveOk) ∧ (answerReleasePathLock s).state.cfc.saveOk
    ∧ (∀ w, (answerWindow w s).state.cfc.saveOk) ∧ (answerSave s).state.cfc.saveOk ∧ (answerPark s).state.cfc.saveOk := by
  refine ⟨fun t b => ?tuning, fun m => ?mode, fun l => ?setLock, ?pathLock, fun w => ?window, ?save, ?park⟩
  case tuning =>
    unfold answerTuning
    repeat' split
    all_goals exact h
  case mode =>
    unfold answerMode
    repeat' split
    all_goals exact h
  case setLock =>
    unfold answerSetLock
    repeat' split
    all_goals exact h
  case pathLock =>
    unfold answerReleasePathLock
    repeat' split
    all_goals exact h
  case window =>
    unfold answerWindow
    repeat' split
    all_goals exact h
  case save =>
    have hbegun : ({ s.cfc with save := .writing, snapshot := some s.imageNow } : Control).saveOk := iff_of_true rfl rfl
    unfold answerSave
    split
    · exact h
    all_goals exact hbegun
  case park =>
    unfold answerPark
    split <;> exact h

/-- Every request's owner keeps a snapshot exactly while a save is WRITING. -/
theorem saveOk_owner {c : Instr} {kind : Byte} {f : Frame} (h : requestOf c = some (kind, f)) :
    ∃ owner : State → Answer, (∀ s, exec c s = s.request kind f owner) ∧ ∀ s, s.cfc.saveOk → (owner s).state.cfc.saveOk := by
  cases c <;> simp only [requestOf, Option.some.injEq, Prod.mk.injEq, reduceCtorEq] at h
  all_goals
    obtain ⟨rfl, rfl⟩ := h
    refine ⟨_, fun _ => rfl, fun s hs => ?_⟩
    have left {u : State} (hu : u.cfc = s.cfc) : u.cfc.saveOk := hu ▸ hs
    obtain ⟨hstart, hhalt, hquery, hfetch⟩ := cfc_orderOwner s
    obtain ⟨hwriteSegments, hreadSegments, hwritePath, hreadPath, hwriteZone, hreadZone, hmap, hchecksum⟩ := cfc_tableOwner s
    obtain ⟨hexchange, htest, htarget, hcomfortOn, hpanelLock⟩ := cfc_moverOwner s
    obtain ⟨htuning, hmode, hsetLock, hpathLock, hwindow, hsave, hpark⟩ := saveOk_controlOwner hs
  case startOrder => exact left (hstart ..)
  case haltOrder => exact left (hhalt _)
  case queryChannel => exact left (hquery _)
  case fetchReport => exact left hfetch
  case writeSegments => exact left (hwriteSegments _)
  case readSegments => exact left (hreadSegments ..)
  case writePath => exact left (hwritePath ..)
  case readPath => exact left (hreadPath _)
  case writeZone => exact left (hwriteZone ..)
  case readZone => exact left (hreadZone _)
  case writeSensorMap => exact left (hmap _)
  case checksum => exact left (hchecksum ..)
  case exchangeRole => exact left (hexchange ..)
  case testOutput => exact left (htest _)
  case setCabinTarget => exact left (htarget _)
  case comfortOn => exact left (hcomfortOn _)
  case panelLock => exact left (hpanelLock _)
  case setTuning => exact htuning ..
  case setMode => exact hmode _
  case setLock => exact hsetLock _
  case releasePathLock => exact hpathLock
  case setPathWindow => exact hwindow _
  case saveConfiguration => exact hsave
  case park => exact hpark
  -- What is left answers from the state, or changes the regulator or the lockout alone.
  all_goals exact hs

/-! ### Every step -/

/-- What the reply places of both ports and the snapshot of a save are held to, from one state to another. -/
structure KeepsPorts (s t : State) : Prop where
  link : s.link.repliesOk → t.link.repliesOk
  panel : s.panel.placesOk → t.panel.placesOk
  save : s.cfc.saveOk → t.cfc.saveOk

theorem KeepsPorts.refl (s : State) : KeepsPorts s s := ⟨id, id, id⟩

theorem KeepsPorts.trans {a b c : State} (h : KeepsPorts a b) (k : KeepsPorts b c) : KeepsPorts a c :=
  ⟨k.link ∘ h.link, k.panel ∘ h.panel, k.save ∘ h.save⟩

/-- The part as a restart or a stop leaves it meets all three (O60). -/
theorem keepsPorts_fresh (s : State) (straps : Straps) (x : Circuit) (i : Option Image) (q : List Instr) (r : RunState) :
    KeepsPorts s { State.fresh straps x i q with run := r } := by
  obtain ⟨-, -, -, hlink, hpanel, hsave⟩ := invariantsAtReset
  exact ⟨fun _ => hlink, fun _ => hpanel, fun _ => hsave⟩

theorem keepsPorts_putRx (s : State) (rx : RxState) : KeepsPorts s (s.putRx rx) := ⟨id, id, id⟩

theorem keepsPorts_frameComplete (s : State) : KeepsPorts s s.frameComplete := ⟨id, id, id⟩

theorem keepsPorts_errorReply (s : State) (k q : Byte) (c : ReplyCode) : KeepsPorts s (s.errorReply k q c) :=
  ⟨fun h => repliesOk_errorReply h k q c, fun h => by rwa [panel_errorReply], fun h => by rwa [cfc_errorReply]⟩

/-- A taken request whose owner leaves the port alone is answered in the place that is left to it. -/
theorem repliesOk_sent {s : State} (h : s.link.repliesOk) (hf : s.link.slot = .free) (hw : s.link.waiting = none) {a : Answer}
    (ha : a.state.link = s.takeSlot.link) (kind seq : Byte) : (a.sent kind seq).link.repliesOk := by
  show (a.state.link.transmit _).repliesOk
  rw [ha]
  exact repliesOk_transmit_taken h hf hw rfl

/-- Whatever becomes of a request, the ports and the save are kept: its owner leaves the ports' replies alone, and the snapshot
goes with the save. -/
theorem keepsPorts_request {s t : State} {c : Instr} {kind : Byte} {f : Frame} (hq : requestOf c = some (kind, f))
    (ht : exec c s = .next t) : KeepsPorts s t := by
  obtain ⟨owner, he, ho⟩ := owner_of_request hq
  obtain ⟨saver, hes, hos⟩ := saveOk_owner hq
  refine ⟨fun h => ?link, fun h => ?panel, fun h => ?save⟩
  case link =>
    refine request_keeps (P := fun s => s.link.repliesOk) (fun _ _ h => h) (fun _ h => h)
      (fun _ k q c h => repliesOk_errorReply h k q c) (fun s h hf hw => repliesOk_sent h hf hw ?_ _ _) h (he s ▸ ht)
    exact judgeRequest_keeps (P := fun u => u.link = s.takeSlot.link) rfl (ho _).link _ _
  case panel =>
    refine request_keeps (P := fun s => s.panel.placesOk) (fun _ _ h => h) (fun _ h => h)
      (fun _ k q c h => by rwa [panel_errorReply]) (fun s h _ _ => ?_) h (he s ▸ ht)
    have howner : (owner s.takeSlot).state.panel.placesOk := by
      rw [(ho _).panel]
      exact h
    have hjudged := judgeRequest_keeps (P := fun u => u.panel.placesOk) (s := s.takeSlot) h howner kind f.lengthFits
    exact hjudged
  case save =>
    refine request_keeps (P := fun s => s.cfc.saveOk) (fun _ _ h => h) (fun _ h => h)
      (fun _ k q c h => by rwa [cfc_errorReply]) (fun s h _ _ => ?_) h (hes s ▸ ht)
    have hjudged := judgeRequest_keeps (P := fun u => u.cfc.saveOk) (s := s.takeSlot) h (hos _ h) kind f.lengthFits
    exact hjudged

/-- The frames that reach no owner: of an unknown kind, or with no slot free. -/
theorem keepsPorts_unheardRow {s t : State} :
    (∀ kind f, execUnknownRequest kind f s = .next t → KeepsPorts s t)
    ∧ (∀ kind f, execBusy kind f s = .next t → KeepsPorts s t) := by
  have arrives {f : State → State} (kind seq : Byte) (body : List Byte) (hf : ∀ s, KeepsPorts s (f s)) :
      KeepsPorts s (s.frameArrives kind seq body f) :=
    frameArrives_keeps (P := KeepsPorts s) (fun _ _ h => h.trans (keepsPorts_putRx ..))
      (fun _ h => h.trans (keepsPorts_errorReply ..)) (fun _ h => h.trans (keepsPorts_frameComplete _))
      (fun _ h => h.trans (hf _)) (.refl s)
  refine ⟨fun kind f ht => ?unknown, fun kind f ht => ?busy⟩
  case unknown =>
    unfold execUnknownRequest at ht
    split at ht
    · cases ht; exact .refl s
    · refine running_keeps (KeepsPorts s) ht (.refl s) fun _ => arrives _ _ _ fun s => ?_
      refine frameTaken_keeps (P := KeepsPorts s) (fun _ h => h.trans (keepsPorts_frameComplete _))
        (fun _ _ _ _ h => h.trans (keepsPorts_errorReply ..)) (fun u h hf hw => h.trans ?_) (.refl s)
      exact ⟨fun h => repliesOk_sent h hf hw rfl _ _, id, id⟩
  case busy =>
    unfold execBusy at ht
    split at ht
    · cases ht; exact .refl s
    · exact running_keeps (KeepsPorts s) ht (.refl s) fun _ => arrives _ _ _ fun s =>
        (keepsPorts_frameComplete s).trans (keepsPorts_errorReply ..)

theorem keepsPorts_receiveOther (s : State) (bytes : List RxByte) : KeepsPorts s (s.receive otherFrame bytes) :=
  receive_keeps (P := KeepsPorts s) (on := otherFrame) (fun _ _ h => h.trans (keepsPorts_putRx ..))
    (fun _ h => h.trans (keepsPorts_errorReply ..)) (fun _ _ _ _ h => h.trans (keepsPorts_frameComplete _)) (.refl s) bytes

theorem keepsPorts_saveFails (s : State) : KeepsPorts s s.saveFails := ⟨id, id, fun _ => iff_of_false nofun nofun⟩

theorem keepsPorts_saveDone (s : State) : KeepsPorts s s.saveDone := ⟨id, id, fun _ => iff_of_false nofun nofun⟩

/-- A soft reset abandons a save and empties the panel's buffer; it leaves the reply places to the reply that is leaving. -/
theorem keepsPorts_softReset (s : State) : KeepsPorts s s.softReset ∧ s.softReset.link = s.link := by
  have habandon : KeepsPorts s s.abandonSave ∧ s.abandonSave.link = s.link := by
    unfold State.abandonSave
    split
    · exact ⟨keepsPorts_saveFails s, rfl⟩
    all_goals exact ⟨.refl s, rfl⟩
  obtain ⟨hkeeps, hlink⟩ := habandon
  exact ⟨⟨hkeeps.link, fun h => ⟨(hkeeps.panel h).1, Nat.zero_le _⟩, hkeeps.save⟩, hlink⟩

theorem keepsPorts_replyLeft (s : State) : KeepsPorts s s.replyLeft := by
  unfold State.replyLeft
  split
  · exact .refl s
  · rename_i r hs
    dsimp only
    split
    · obtain ⟨hkeeps, hlink⟩ := keepsPorts_softReset s
      exact hkeeps.trans ⟨fun h => repliesOk_left h ((congrArg LinkPort.sending hlink).trans hs), id, id⟩
    · exact ⟨fun h => repliesOk_left h hs, id, id⟩

/-- What the port of the panel does leaves the system link and the save alone. -/
theorem keepsPorts_panelChars (s : State) (bs : List Byte) : KeepsPorts s (s.panelChars bs) := by
  have hbyte (s : State) (b : Byte) : (s.panelChar b).link = s.link ∧ (s.panelChar b).cfc = s.cfc := by
    unfold State.panelChar State.rejectLine State.takeLine
    repeat' split
    all_goals exact ⟨rfl, rfl⟩
  have hfold : (bs.foldl State.panelChar s).link = s.link ∧ (bs.foldl State.panelChar s).cfc = s.cfc :=
    List.foldlRecOn (motive := fun x : State => x.link = s.link ∧ x.cfc = s.cfc) _ _ ⟨rfl, rfl⟩ fun x hx b _ =>
      ⟨(hbyte x b).1.trans hx.1, (hbyte x b).2.trans hx.2⟩
  have hsame : (s.panelChars bs).link = s.link ∧ (s.panelChars bs).cfc = s.cfc := by
    unfold State.panelChars
    split
    · exact ⟨rfl, rfl⟩
    all_goals exact hfold
  exact ⟨fun h => by rwa [hsame.1], fun h => placesOk_panelChars h bs, fun h => by rwa [hsame.2]⟩

theorem keepsPorts_whileSaving {s : State} {f : State → State} (hf : KeepsPorts s (f s)) : KeepsPorts s (s.whileSaving f) := by
  unfold State.whileSaving
  split
  · exact hf
  all_goals exact .refl s

theorem keepsPorts_betweenScans {s : State} {f : State → State} (hf : KeepsPorts s (f s)) :
    KeepsPorts s (s.betweenScans f) := by
  unfold State.betweenScans
  split
  · exact hf
  · exact .refl s

/-- The rows of a scan (R4 to R12). -/
theorem keepsPorts_scanRow {s t : State} :
    (execScanStart s = .next t → KeepsPorts s t) ∧ (execParkedScanStart s = .next t → KeepsPorts s t)
    ∧ (execWakingScanStart s = .next t → KeepsPorts s t) ∧ (∀ i r, execSensorRead i r s = .next t → KeepsPorts s t)
    ∧ (∀ i, execInputLost i s = .next t → KeepsPorts s t) ∧ (∀ f ord, execScanEnd f ord s = .next t → KeepsPorts s t) := by
  refine ⟨?start, ?parked, ?waking, fun i r => ?read, fun i => ?lost, fun f ord => ?ends⟩ <;>
    refine fun ht => running_keeps (KeepsPorts s) ht (.refl s) fun _ => ?_
  case start => split <;> exact ⟨id, id, id⟩
  case parked => split <;> exact ⟨id, id, id⟩
  case waking => split <;> exact ⟨id, id, id⟩
  case read =>
    split
    · exact .refl s
    · split <;> exact ⟨id, id, id⟩
  case lost =>
    split
    · exact .refl s
    · split <;> exact ⟨id, id, id⟩
  case ends =>
    split
    · rename_i kind _
      have hover := scanOver_endScan s kind f ord
      exact ⟨fun h => by rwa [hover.link], fun h => by rwa [hover.panel], fun h => by rw [hover.cfc]; exact h⟩
    all_goals exact .refl s

/-- The rows of the supply and of the reset pin leave the part as it was, or as at power-on. -/
theorem keepsPorts_supplyRow {s t : State} :
    (∀ straps, execResetPinRelease straps s = .next t → KeepsPorts s t)
    ∧ (execResetPinAssert s = .next t → KeepsPorts s t) ∧ (execPowerLoss s = .next t → KeepsPorts s t) := by
  refine ⟨fun straps ht => ?release, fun ht => ?assert, fun ht => ?loss⟩
  case release =>
    unfold execResetPinRelease at ht
    split at ht <;> cases ht
    · exact keepsPorts_fresh ..
    · exact keepsPorts_fresh ..
    · exact .refl s
  case assert =>
    unfold execResetPinAssert at ht
    split at ht <;> cases ht
    · exact keepsPorts_fresh ..
    · exact .refl s
    · exact .refl s
  case loss =>
    unfold execPowerLoss at ht
    split at ht <;> cases ht
    · exact keepsPorts_fresh ..
    · exact keepsPorts_fresh ..
    · exact .refl s

theorem keepsPorts_finishStart (s : State) (r : ImageRead) : KeepsPorts s (s.finishStart r) := by
  unfold State.finishStart
  split
  · exact ⟨id, id, id⟩
  · split <;> exact ⟨id, id, id⟩

/-- Every command keeps the reply places of both ports and the snapshot of a save. -/
theorem keepsPorts_exec {s t : State} {c : Instr} (ht : exec c s = .next t) : KeepsPorts s t := by
  rcases hq : requestOf c with _ | ⟨kind, f⟩
  case some => exact keepsPorts_request hq ht
  by_cases hp : plantEvent c = true
  · rw [(actsOnEngine_plantEvent hp ht).state]
    exact ⟨id, id, id⟩
  obtain ⟨hunknown, hbusy⟩ := keepsPorts_unheardRow (s := s) (t := t)
  obtain ⟨hstart, hparked, hwaking, hread, hlost, hend⟩ := keepsPorts_scanRow (s := s) (t := t)
  obtain ⟨hrelease, hassert, hloss⟩ := keepsPorts_supplyRow (s := s) (t := t)
  have running {f : State → State} (ht : Host.Outcome.next (φ := Fault) (ρ := Refusal) (s.whileRunning f) = .next t)
      (hf : KeepsPorts s (f s)) : KeepsPorts s t := running_keeps (KeepsPorts s) ht (.refl s) fun _ => hf
  cases c
  case unknownRequest kind f => exact hunknown kind f ht
  case busy kind f => exact hbusy kind f ht
  case frameError bytes after => exact running ht ((keepsPorts_receiveOther ..).trans (keepsPorts_receiveOther ..))
  case frameTimeout bytes =>
    exact running ht (((keepsPorts_receiveOther ..).trans (keepsPorts_putRx ..)).trans (keepsPorts_receiveOther ..))
  case replySent => exact running ht (keepsPorts_replyLeft s)
  case powerOnReset straps => cases ht; exact keepsPorts_fresh ..
  case resetPinRelease straps => exact hrelease straps ht
  case resetPinAssert => exact hassert ht
  case powerLoss => exact hloss ht
  case imageLoadComplete r =>
    refine running ht ?_
    split
    · exact keepsPorts_finishStart s r
    all_goals exact .refl s
  case scanStart => exact hstart ht
  case parkedScanStart => exact hparked ht
  case wakingScanStart => exact hwaking ht
  case sensorRead i r => exact hread i r ht
  case inputLost i => exact hlost i ht
  case scanEnd f ord => exact hend f ord ht
  case parkTimerExpiry =>
    refine running ht ?_
    unfold State.parkIfDue
    split <;> exact ⟨id, id, id⟩
  case outputEnableEnd =>
    refine running ht ?_
    split <;> exact ⟨id, id, id⟩
  case savePiece => exact running ht (keepsPorts_whileSaving (keepsPorts_betweenScans ⟨id, id, id⟩))
  case saveComplete => exact running ht (keepsPorts_whileSaving (keepsPorts_betweenScans (keepsPorts_saveDone s)))
  case saveFailed => exact running ht (keepsPorts_whileSaving (keepsPorts_saveFails s))
  case panelTargetLine rest => exact running ht (keepsPorts_panelChars ..)
  case panelQueryLine => exact running ht (keepsPorts_panelChars ..)
  case panelBadLine line => exact running ht (keepsPorts_panelChars ..)
  case panelLineTimeout before after =>
    refine running ht (.trans (b := (s.panelChars before).emptyLine) ?_ (keepsPorts_panelChars ..))
    exact (keepsPorts_panelChars ..).trans ⟨id, placesOk_emptyLine, id⟩
  case panelReplySent => exact running ht ⟨id, fun h => ⟨fun _ => rfl, h.2⟩, id⟩
  -- What is left is an event of the plant or a request.
  all_goals first | exact absurd rfl hp | exact absurd hq (Option.some_ne_none _)

theorem keepsPorts_idle (s : State) : KeepsPorts s s.idle := by
  refine whileRunning_keeps (P := KeepsPorts s) (.refl s) fun _ => ?_
  unfold State.parkedTick
  split <;> exact ⟨id, id, id⟩

/-- Settles O59: a step is a command on the queue's rest or an idle step, and both keep all three. -/
theorem portsKept : Obligations.PortsKept := by
  intro s t ht
  have hkeeps : KeepsPorts s t := by
    unfold step at ht
    split at ht
    · cases ht
      exact keepsPorts_idle s
    · have hrest (q : List Instr) : KeepsPorts s (s.withPending q) := ⟨id, id, id⟩
      exact (hrest _).trans (keepsPorts_exec ht)
  exact ⟨hkeeps.link, hkeeps.panel, hkeeps.save⟩

end Sys2Proof.Machine
end

section
/-! O51: the lines of the panel and their replies. -/

namespace Sys2Proof.Machine

open Sys2Proof

/-! ### Characters (R163) -/

/-- A character that ends no line and is not passed over. -/
def Typed (b : Byte) : Prop := b ≠ 0x0D ∧ b ≠ 0x0A

/-- The state with the panel's line buffer and overlong mark replaced. -/
def State.holdLine (s : State) (buffer : List Byte) (overlong : Bool) : State :=
  { s with panel := { s.panel with buffer := buffer, overlong := overlong } }

theorem emptyLine_holdLine (s : State) (buffer : List Byte) (overlong : Bool) :
    (s.holdLine buffer overlong).emptyLine = s.emptyLine := rfl

/-- A port with an empty buffer and no overlong mark is as a pause leaves it. -/
theorem emptyLine_same {s : State} (hb : s.panel.buffer = []) (ho : s.panel.overlong = false) : s.emptyLine = s := by
  unfold State.emptyLine
  rw [← hb, ← ho]

theorem panelChars_eq {s : State} (h : s.eng.part ≠ .starting) (bs : List Byte) :
    s.panelChars bs = bs.foldl State.panelChar s := by
  unfold State.panelChars
  split
  · rename_i hp
    exact absurd hp h
  all_goals rfl

/-- A character other than a carriage return changes buffer and mark alone. -/
theorem panelChar_holds (s : State) {b : Byte} (h : b ≠ 0x0D) : ∃ x y, s.panelChar b = s.holdLine x y := by
  unfold State.panelChar
  rw [if_neg h]
  repeat' split
  all_goals exact ⟨_, _, rfl⟩

theorem foldl_panelChar_holds (s : State) {bs : List Byte} (h : ∀ b ∈ bs, b ≠ 0x0D) :
    ∃ x y, bs.foldl State.panelChar s = s.holdLine x y := by
  refine List.foldlRecOn (motive := fun t : State => ∃ x y, t = s.holdLine x y) _ _ ⟨_, _, rfl⟩ fun t ⟨x, y, ht⟩ b hb => ?_
  obtain ⟨x', y', hc⟩ := panelChar_holds t (h b hb)
  exact ⟨x', y', by rw [hc, ht]; rfl⟩

/-- Once the line is overlong the characters before its end are discarded. -/
theorem foldl_panelChar_overlong {s : State} (ho : s.panel.overlong = true) {bs : List Byte} (h : ∀ b ∈ bs, Typed b) :
    bs.foldl State.panelChar s = s := by
  refine List.foldlRecOn (motive := fun t : State => t = s) _ _ rfl fun t ht b hb => ?_
  obtain ⟨hr, hl⟩ := h b hb
  rw [ht, State.panelChar, if_neg hr, if_neg hl, if_pos ho]

/-- Typed characters fill the buffer up to 16; one more marks the line overlong. -/
theorem foldl_panelChar_typed {s : State} (ho : s.panel.overlong = false) (hn : s.panel.buffer.length ≤ 16) {bs : List Byte}
    (h : ∀ b ∈ bs, Typed b) : bs.foldl State.panelChar s
      = s.holdLine ((s.panel.buffer ++ bs).take 16) (decide (16 < (s.panel.buffer ++ bs).length)) := by
  induction bs generalizing s with
  | nil => simp [State.holdLine, List.take_of_length_le hn, Nat.not_lt.2 hn, ← ho]
  | cons b bs ih =>
    obtain ⟨⟨hr, hl⟩, hbs⟩ := List.forall_mem_cons.1 h
    have hchar : s.panelChar b = if s.panel.buffer.length < 16 then s.holdLine (s.panel.buffer ++ [b]) s.panel.overlong
        else s.holdLine s.panel.buffer true := by
      rw [State.panelChar, if_neg hr, if_neg hl, if_neg (by simp [ho])]
      rfl
    rw [List.foldl_cons, hchar]
    split
    · rename_i hroom
      rw [ih (s := s.holdLine (s.panel.buffer ++ [b]) s.panel.overlong) ho (by simpa [State.holdLine] using hroom) hbs]
      simp [State.holdLine]
    · rename_i hfull
      have hlen : s.panel.buffer.length = 16 := by omega
      rw [foldl_panelChar_overlong rfl hbs, List.take_left' hlen, decide_eq_true (by simp [hlen])]

/-! ### Lines (R163, R164) -/

theorem reply_eq (p : PanelPort) (text : List Byte) : p.reply text
    = if p.sending = none then { p with sending := some (text ++ [0x0D]) } else { p with waiting := some (text ++ [0x0D]) } := by
  unfold PanelPort.reply
  cases h : p.sending <;> simp

/-- A line that the port takes now, at the start of a line with no reply waiting. -/
structure State.AwaitsLine (s : State) : Prop where
  part : s.eng.part ≠ .starting
  buffer : s.panel.buffer = []
  overlong : s.panel.overlong = false
  waiting : s.panel.waiting = none

section
variable {s : State} (h : s.AwaitsLine) {line : List Byte} (ht : ∀ b ∈ line, Typed b)
include h ht

theorem panelChars_line : s.panelChars (line ++ [0x0D])
    = (s.holdLine (line.take 16) (decide (16 < line.length))).panelChar 0x0D := by
  rw [panelChars_eq h.part, List.foldl_append, foldl_panelChar_typed h.overlong (by simp [h.buffer]) ht, h.buffer]
  rfl

/-- A line of at most 16 characters is answered. -/
theorem panelChars_answered (hne : line ≠ []) (hlen : line.length ≤ 16) : s.panelChars (line ++ [0x0D])
    = { s with panel := s.panel.reply (answerLine line s.panel.lock s.eng.crg s.cabinMean).1
               eng := { s.eng with crg := { s.eng.crg with target := (answerLine line s.panel.lock s.eng.crg s.cabinMean).2 } } } := by
  have hbuffer : ¬ (s.holdLine line false).panel.buffer.isEmpty = true := by simpa [State.holdLine] using hne
  rw [panelChars_line h ht, List.take_of_length_le hlen, decide_eq_false (Nat.not_lt.2 hlen), State.panelChar, if_pos rfl,
    if_neg (by simp [State.holdLine]), if_neg hbuffer, emptyLine_holdLine, emptyLine_same h.buffer h.overlong]
  exact if_neg (by simp [h.waiting])

/-- A longer line is rejected at its end. -/
theorem panelChars_rejected (hlen : 16 < line.length) :
    s.panelChars (line ++ [0x0D]) = { s with panel := s.panel.reply [0x45] } := by
  rw [panelChars_line h ht, decide_eq_true hlen, State.panelChar, if_pos rfl,
    if_pos (show (s.holdLine _ true).panel.overlong = true from rfl),
    emptyLine_holdLine, emptyLine_same h.buffer h.overlong]
  exact if_neg (by simp [h.waiting])

end

/-- A pause empties the buffer: what was received before it without a carriage return is gone. -/
theorem panelChars_pause {s : State} (h : s.AwaitsLine) {before after : List Byte} (hb : ∀ b ∈ before, b ≠ 0x0D)
    (ha : ∀ b ∈ after, Typed b) (hlen : after.length ≤ 16) :
    (s.panelChars before).emptyLine.panelChars after = { s with panel := { s.panel with buffer := after } } := by
  obtain ⟨x, y, hx⟩ := foldl_panelChar_holds s hb
  rw [panelChars_eq h.part, hx, emptyLine_holdLine, emptyLine_same h.buffer h.overlong, panelChars_eq h.part,
    foldl_panelChar_typed h.overlong (by simp [h.buffer]) ha, h.buffer, List.nil_append, List.take_of_length_le hlen,
    decide_eq_false (Nat.not_lt.2 hlen), ← h.overlong]
  rfl

/-! ### What a line asks (R164) -/

/-- The character of a digit. -/
def digitChar (n : Fin 10) : Byte := BitVec.ofNat 8 (48 + n.val)

theorem digitOf_digitChar : ∀ n, digitOf (digitChar n) = some n.val := by decide

theorem typed_digitChar : ∀ n, Typed (digitChar n) := by
  unfold Typed
  decide

/-- The characters of a target line between "T=" and its end. -/
def targetChars (a b c : Fin 10) : List Byte := [digitChar a, digitChar b, 0x2E, digitChar c]

/-- The target that such a line asks for, in tenths. -/
def targetAsked (a b c : Fin 10) : Int := a.val * 100 + b.val * 10 + c.val

theorem readLine_target (a b c : Fin 10) : readLine (0x54 :: 0x3D :: targetChars a b c) = .target (targetAsked a b c) := by
  simp [readLine, targetChars, targetOfLine, digitOf_digitChar, targetAsked]

theorem typed_targetLine (a b c : Fin 10) : ∀ x ∈ 0x54 :: 0x3D :: targetChars a b c, Typed x := by
  have hfixed : Typed 0x54 ∧ Typed 0x3D ∧ Typed 0x2E := by
    unfold Typed
    decide
  simpa [targetChars, typed_digitChar] using hfixed

/-- Settles O51: a line of at most 16 characters is answered by what it asks, a longer one is rejected, and a pause or a reply
that has left act on buffer and reply places alone. -/
theorem panelLines : Obligations.PanelLines := by
  refine ⟨fun s hrun hpart hbuffer hover hwait => ?_, fun s hrun => ?_⟩
  · have h : s.AwaitsLine := ⟨hpart, hbuffer, hover, hwait⟩
    have hexec {f : State → State} {t : State} (hf : f s = t) :
        Host.Outcome.next (φ := Fault) (ρ := Refusal) (s.whileRunning f) = .next t := by
      rw [State.whileRunning, hrun]
      exact congrArg _ hf
    have hsends (text : List Byte) := reply_eq s.panel text
    refine ⟨fun a b c => ?target, hexec ?query, fun line hne htyped hbad => hexec ?bad,
      fun before after hb ha hlen => hexec (panelChars_pause h hb ha hlen)⟩
    case target =>
      have hline := panelChars_answered h (typed_targetLine a b c) (by simp) (by simp [targetChars])
      rw [answerLine, readLine_target] at hline
      refine ⟨fun hl hlow hhigh => hexec (hline.trans ?_), fun hl => hexec (hline.trans ?_),
        fun hl hout => hexec (hline.trans ?_)⟩
      · have hok : targetOk (targetAsked a b c) = true := decide_eq_true ⟨hlow, hhigh⟩
        simp only [hl, hok, hsends]
        rfl
      · simp only [hl, hsends]
        rfl
      · have hok : targetOk (targetAsked a b c) = false := decide_eq_false fun ⟨hlow, hhigh⟩ => by
          simp only [targetAsked] at hlow hhigh
          omega
        simp only [hl, hok, hsends]
        rfl
    case query =>
      have hline := panelChars_answered h (line := [0x51]) (by simp [Typed]) (by simp) (by simp)
      exact hline.trans (by rw [hsends]; rfl)
    case bad =>
      by_cases hlen : 16 < line.length
      · rw [panelChars_rejected h htyped hlen, hsends]
      · have hother : readLine line = .other := hbad.resolve_right hlen
        rw [panelChars_answered h htyped hne (Nat.not_lt.1 hlen), answerLine, hother, hsends]
        rfl
  · show Host.Outcome.next (s.whileRunning _) = _
    rw [State.whileRunning, hrun]
    rfl

end Sys2Proof.Machine
end

section
/-! O32: the requests COMFORT ON, COMFORT OFF and PANEL LOCK. -/

namespace Sys2Proof.Machine

open Sys2Proof

/-! ### COMFORT ON (R155) -/

/-- Both paths of the settings are DEFINED, the one heating the cabin and the other cooling it (R153). -/
def Tables.ServesCab (t : Tables) (x : ComfortSettings) : Prop :=
  ∃ h c p q, x.heatPath = some h ∧ x.coolPath = some c ∧ Bank.nth t.paths h = some p ∧ p.sink = .cabin
    ∧ Bank.nth t.paths c = some q ∧ q.source = .cabin

/-- The settings that a COMFORT ON asks for: those given, in range, or those in force. -/
def Engine.AskedFor (e : Engine) (g : Option RawComfort) (x : ComfortSettings) : Prop :=
  g = none ∧ x = e.crg.settings ∨ ∃ r, g = some r ∧ comfortOf r = some x

theorem comfortSettings_serve {s : State} {g : Option RawComfort} {x : ComfortSettings} (hg : s.eng.AskedFor g x)
    (hx : s.tab.ServesCab x) : s.comfortSettings g = some x := by
  obtain ⟨h, c, p, q, hh, hc, hp, hsink, hq, hsource⟩ := hx
  have hheat : s.tab.servesComfort x.heatPath (fun p => p.sink = .cabin) = true := by
    simp [Tables.servesComfort, hh, hp, hsink]
  have hcool : s.tab.servesComfort x.coolPath (fun p => p.source = .cabin) = true := by
    simp [Tables.servesComfort, hc, hq, hsource]
  rcases hg with ⟨rfl, rfl⟩ | ⟨r, rfl, hr⟩
  · exact if_pos ⟨hheat, hcool⟩
  · unfold State.comfortSettings
    simp only [hr]
    exact if_pos ⟨hheat, hcool⟩

/-- The regulator runs, or channel 5 is not free for it (R155, case 4). -/
def Engine.ComfortBusy (e : Engine) : Prop :=
  e.crg.state = .held ∨ (∃ d, e.crg.state = .active d) ∨ e.order 5 ≠ none ∨ (e.channel 5).recordQueued = true

section
variable {s : State} {g : Option RawComfort} {x : ComfortSettings} (hx : s.comfortSettings g = some x)
include hx

theorem answerComfortOn_waking (hp : s.eng.part = .waking) :
    answerComfortOn g s = s.gives .unavailable (.unavailable .waking) := by
  simp [answerComfortOn, hx, hp]

variable (hp : s.eng.part = .ready)
include hp

theorem answerComfortOn_lockout (hl : s.cfc.lockout = true) :
    answerComfortOn g s = s.gives .unavailable (.unavailable .lockout) := by
  simp [answerComfortOn, hx, hp, hl]

variable (hl : s.cfc.lockout = false)
include hl

theorem answerComfortOn_busy (hb : s.eng.ComfortBusy) : answerComfortOn g s = s.says .inUse := by
  have hawake : s.eng.part ≠ .waking := by simp [hp]
  simp only [answerComfortOn, hx, if_neg hawake, hl, Bool.false_eq_true, if_false]
  cases hst : s.eng.crg.state with
  | held | active d => rfl
  | disabled | suspended =>
    refine if_pos ?_
    rcases hb with hb | ⟨d, hb⟩ | hb | hb
    · cases hst.symm.trans hb
    · cases hst.symm.trans hb
    · exact .inl (Option.isSome_iff_ne_none.2 hb)
    · exact .inr hb

theorem answerComfortOn_taken (hb : ¬ s.eng.ComfortBusy) : answerComfortOn g s
    = (s.putEngine { s.eng with crg := ⟨s.eng.crg.target, x, .active .resting⟩ }).gives .ok
        (.comfort ⟨.active .resting, x, s.eng.crg.target⟩) := by
  have hfree : ¬ ((s.eng.order comfortChannel).isSome = true ∨ (s.eng.channel comfortChannel).recordQueued = true) :=
    fun k => hb (.inr (.inr (k.imp Option.isSome_iff_ne_none.1 id)))
  have hawake : s.eng.part ≠ .waking := by simp [hp]
  simp only [answerComfortOn, hx, if_neg hawake, hl, Bool.false_eq_true, if_false]
  cases hst : s.eng.crg.state with
  | held => exact absurd (.inl hst) hb
  | active d => exact absurd (.inr (.inl ⟨d, hst⟩)) hb
  | disabled | suspended => exact if_neg hfree

end

/-! ### COMFORT OFF (R156) -/

/-- A DISABLED regulator stays so at the end of its order (R160). -/
theorem regulatorTakes_disabled {e : Engine} (h : e.crg.state = .disabled) (w : Owner) (g : Ending) :
    e.regulatorTakes w g = e := by
  unfold Engine.regulatorTakes
  split
  · rw [h, RegState.afterEnd, ← h]
    rfl
  all_goals rfl

/-- An end of the regulator's order that forms no record leaves the channel IDLE (R160). -/
theorem closeOrder_unrecorded {o : Order} (hw : o.owner = .regulator) {g : Ending}
    (hg : Owner.regulator.formsRecord g.cause = false) (e : Engine) (c : ChannelNo) :
    e.closeOrder c o g = e.putOrder c none := by
  simp [Engine.closeOrder, hw, hg]

theorem comfortOrder_none {e : Engine} (h : ∀ o, e.order 5 = some o → o.owner ≠ .regulator) : e.comfortOrder = none := by
  unfold Engine.comfortOrder
  split
  · rfl
  · rename_i o ho
    exact if_neg (h o ho)

theorem comfortOrder_some {e : Engine} {o : Order} (ho : e.order 5 = some o) (hw : o.owner = .regulator) :
    e.comfortOrder = some o := by
  have ho : e.order comfortChannel = some o := ho
  simp [Engine.comfortOrder, ho, hw]

theorem order_putRegState (e : Engine) (r : RegState) (c : ChannelNo) : (e.putRegState r).order c = e.order c := rfl

section
variable {e : Engine} (t : Tables) (k : Engine → Engine)

theorem comfortDisable_other (h : ∀ o, e.order 5 = some o → o.owner ≠ .regulator) :
    e.comfortDisable t k = e.putRegState .disabled := by
  rw [Engine.comfortDisable, comfortOrder_none (e := e.putRegState .disabled) h]

variable {o : Order} (ho : e.order 5 = some o) (hw : o.owner = .regulator)
include ho hw

theorem comfortDisable_own :
    e.comfortDisable t k = (e.putRegState .disabled).imposeEnd t k 5 (.plain .halted) := by
  rw [Engine.comfortDisable, comfortOrder_some (e := e.putRegState .disabled) ho hw]
  rfl

theorem comfortDisable_waiting (hp : o.phase = .waiting) : e.comfortDisable t k
    = (k (((e.putRegState .disabled).withdraw 5).putOrder 5 none)).servePending t k 5 := by
  rw [comfortDisable_own t k ho hw, imposeEnd_waiting (e := e.putRegState .disabled) t k ho hp, Engine.endWaiting,
    regulatorTakes_disabled rfl, closeOrder_unrecorded hw rfl]

theorem comfortDisable_active (hp : o.phase = .setting ∨ o.phase = .running) (hn : (t.entry o.copy.path).runDown ≠ 0) :
    e.comfortDisable t k = (e.putRegState .disabled).putOrder 5 (some (o.endingFor t (.plain .halted) false)) := by
  rw [comfortDisable_own t k ho hw, imposeEnd_active (e := e.putRegState .disabled) t k ho hp, Engine.enterEnd,
    regulatorTakes_disabled rfl, Engine.endIfImmediate, if_neg hn]

theorem comfortDisable_transition {r : RunDown} (hp : o.phase = .ending r) (hr : r.purpose = .transition) :
    e.comfortDisable t k = (e.putRegState .disabled).putOrder 5
      (some { o with phase := .ending { r with purpose := .endWith (.plain .halted) }, failure := none }) := by
  rw [comfortDisable_own t k ho hw, imposeEnd_transition (e := e.putRegState .disabled) t k ho hp hr,
    regulatorTakes_disabled rfl]

/-- An order that already runs down to an end goes on doing so. -/
theorem comfortDisable_ending {r : RunDown} {g : Ending} (hp : o.phase = .ending r) (hr : r.purpose = .endWith g) :
    e.comfortDisable t k = e.putRegState .disabled := by
  rw [comfortDisable_own t k ho hw]
  simp [Engine.imposeEnd, order_putRegState, ho, hp, hr]

end

/-! ### The answers -/

section
variable {s : State} {f : Frame} (h : s.accepts f)
include h

theorem exec_comfortOn {g : Option RawComfort} {t : State} {c : ReplyCode} {b : ReplyBody}
    (ho : answerComfortOn g s.asTaken = t.gives c b) : exec (.comfortOn f g) s = .next (t.answered f 0xC1 c b) :=
  request_gives h rfl ho

theorem exec_comfortOff {e : Engine} (he : s.asTaken.eng.comfortDisable s.tab (Engine.grantScan s.tab) = e) :
    exec (.comfortOff f) s = .next ((s.asTaken.putEngine e).answered f 0xC2 .ok
      (.comfort ⟨e.crg.state, e.crg.settings, e.crg.target⟩)) := by
  subst he
  exact request_gives h rfl rfl

/-- COMFORT ON with settings that serve, by the cases of R155 in their order. -/
theorem comfortOn_cases {g : Option RawComfort} {x : ComfortSettings} (hg : s.eng.AskedFor g x) (hx : s.tab.ServesCab x) :
    (s.eng.part ≠ .ready →
      exec (.comfortOn f g) s = .next (s.asTaken.answered f 0xC1 .unavailable (.unavailable .waking)))
    ∧ (s.eng.part = .ready → s.cfc.lockout = true →
      exec (.comfortOn f g) s = .next (s.asTaken.answered f 0xC1 .unavailable (.unavailable .lockout)))
    ∧ (s.eng.part = .ready → s.cfc.lockout = false → s.eng.ComfortBusy →
      exec (.comfortOn f g) s = .next (s.asTaken.answered f 0xC1 .inUse .none))
    ∧ (s.eng.part = .ready → s.cfc.lockout = false → ¬ s.eng.ComfortBusy →
      exec (.comfortOn f g) s
        = .next ((s.asTaken.putEngine { s.eng with crg := ⟨s.eng.crg.target, x, .active .resting⟩ }).answered f 0xC1 .ok
          (.comfort ⟨.active .resting, x, s.eng.crg.target⟩))) := by
  have hasked : s.asTaken.eng.AskedFor g x := by simpa [Engine.AskedFor] using hg
  have hserves : s.asTaken.comfortSettings g = some x := comfortSettings_serve hasked hx
  refine ⟨fun hp => exec_comfortOn h (answerComfortOn_waking hserves (asTaken_waking_of_accepts h hp)),
    fun hp hl => exec_comfortOn h ?_, fun hp hl hb => exec_comfortOn h ?_, fun hp hl hb => exec_comfortOn h ?_⟩
  all_goals have heng := asTaken_eng_ready hp
  · exact answerComfortOn_lockout hserves (by rw [heng, hp]) hl
  · exact answerComfortOn_busy hserves (by rw [heng, hp]) hl (by rwa [heng])
  · have htaken := answerComfortOn_taken hserves (by rw [heng, hp]) hl (by rwa [heng])
    rwa [heng] at htaken

/-- COMFORT OFF by the state of channel 5 (R156). -/
theorem comfortOff_cases :
    let e := s.asTaken.eng.putRegState .disabled
    let off (e' : Engine) := exec (.comfortOff f) s = .next ((s.asTaken.putEngine e').answered f 0xC2 .ok
      (.comfort ⟨e'.crg.state, e'.crg.settings, e'.crg.target⟩))
    ((∀ o, s.eng.order 5 = some o → o.owner ≠ .regulator) → off e)
    ∧ ∀ o, s.eng.order 5 = some o → o.owner = .regulator →
      (o.phase = .waiting →
        off ((Engine.grantScan s.tab ((e.withdraw 5).putOrder 5 none)).servePending s.tab (Engine.grantScan s.tab) 5))
      ∧ ((o.phase = .setting ∨ o.phase = .running) → 0 < (s.tab.entry o.copy.path).runDown * 10 →
        off (e.putOrder 5 (some (o.endingFor s.tab (.plain .halted) false))))
      ∧ (∀ r, o.phase = .ending r → r.purpose = .transition →
        off (e.putOrder 5 (some { o with
          phase := .ending { r with purpose := .endWith (.plain .halted) }, failure := none })))
      ∧ (∀ r g, o.phase = .ending r → r.purpose = .endWith g → off e) := by
  intro e off
  refine ⟨fun hother => exec_comfortOff h (comfortDisable_other _ _ (by simpa using hother)), fun o hs hw => ?_⟩
  have ho : s.asTaken.eng.order 5 = some o := by simpa using hs
  exact ⟨fun hp => exec_comfortOff h (comfortDisable_waiting _ _ ho hw hp),
    fun hp hn => exec_comfortOff h (comfortDisable_active _ _ ho hw hp (by omega)),
    fun r hp hr => exec_comfortOff h (comfortDisable_transition _ _ ho hw hp hr),
    fun r g hp hr => exec_comfortOff h (comfortDisable_ending _ _ ho hw hp hr)⟩

/-- PANEL LOCK sets the lock or clears it; a byte that is neither is refused (R165). -/
theorem panelLock_cases :
    (∀ b, exec (.panelLock f (some b)) s = .next (({ s.asTaken with panel := { s.panel with lock := b } }).answered f 0xC3
      .ok (.panelLock b ⟨s.eng.crg.state, s.eng.crg.settings, s.eng.crg.target⟩)))
    ∧ exec (.panelLock f none) s = .next (s.asTaken.answered f 0xC3 .badArgument .none) := by
  refine ⟨fun b => ?_, request_says h rfl rfl⟩
  have hanswer : answerPanelLock (some b) s.asTaken = ({ s.asTaken with panel := { s.panel with lock := b } }).gives .ok
      (.panelLock b ⟨s.asTaken.eng.crg.state, s.asTaken.eng.crg.settings, s.asTaken.eng.crg.target⟩) := rfl
  rw [State.asTaken_eng, Engine.wakeUp_crg] at hanswer
  exact request_gives h rfl hanswer

end

end Sys2Proof.Machine
end

section
/-! O32: what a full scan's end makes of channel 5 and the regulator where nothing else changes. -/

namespace Sys2Proof.Machine

open Sys2Proof

/-! ### Channel 5's own work and the judgement of the cab, in the order given (R157) -/

/-- The regulator's judgement of the cab at the scan's end. -/
def State.judgesCab (s : State) (e : Engine) : Engine :=
  e.comfortJudge s.tab (Engine.grantScan s.tab) s.cfc.lockout (Bank.nth s.sbe.formReadings Zone.cabin.idx).mean

/-- Channel 5's own work at the scan's end, for the order it had before it. -/
def State.worksFive (s : State) (heat : Bank (Option Int) 4) (e : Engine) : Engine :=
  e.channelWork s.tab (Engine.grantScan s.tab) ⟨heat, .separate⟩ 5 (s.eng.order 5)

/-- An engine that the work and the judgement leave, the one or the other first. -/
def State.CabJudged (s : State) (a d : Engine) : Prop :=
  ∃ heat, d = s.judgesCab (s.worksFive heat a) ∨ d = s.worksFive heat (s.judgesCab a)

/-- A scan end's work where one channel alone runs an order and no zone changes its state, is that channel's own and the
regulator's judgement. -/
theorem judgeWork_oneChannel {a : Engine} {t : Tables} {x : ScanInput} {f : ScanFigures} {before : Bank (Option Order) 6}
    {c : ChannelNo} {work judge : Engine → Engine} (hl : x.order.channelsFirst.Nodup)
    (hnew : ∀ d, d ≠ c → Bank.nth before d = none)
    (hwork : ∀ e, e.channelWork t (Engine.grantScan t) f c (Bank.nth before c) = work e)
    (hjudge : ∀ e, e.comfortJudge t (Engine.grantScan t) x.lockout (Bank.nth x.readings Zone.cabin.idx).mean = judge e)
    (hz : a.judgeZones t (Engine.grantScan t) x.readings = a)
    (hzw : (work a).judgeZones t (Engine.grantScan t) x.readings = work a) :
    a.judgeWork t x f before = judge (work a) ∨ a.judgeWork t x f before = work (judge a) := by
  have hothers (e : Engine) (d : ChannelNo) (hd : d ≠ c) :
      e.channelWork t (Engine.grantScan t) f d (Bank.nth before d) = e := by
    rw [hnew d hd]
    rfl
  have hfold (e : Engine) {l : List ChannelNo} (hl : l.Nodup) :
      e.channelsWork t f before l = if c ∈ l then work e else e :=
    foldl_one_of_nodup hl (hothers e) (hwork e) (hothers _)
  have hall : (allChannels.filter fun d => !x.order.channelsFirst.contains d).Nodup := List.Nodup.filter _ (by decide)
  unfold Engine.judgeWork
  dsimp only
  rw [hfold a hl]
  by_cases hc : c ∈ x.order.channelsFirst
  · have hout : c ∉ allChannels.filter fun d => !x.order.channelsFirst.contains d := by simp [hc]
    rw [if_pos hc, hzw, hfold _ hall, hfold _ hall, if_neg hout, if_neg hout, hjudge, ite_self]
    exact .inl rfl
  · have hin : c ∈ allChannels.filter fun d => !x.order.channelsFirst.contains d :=
      List.mem_filter.2 ⟨mem_allChannels c, by simp [hc]⟩
    rw [if_neg hc, hz, hfold _ hall, hfold _ hall, if_pos hin, if_pos hin, hjudge, hjudge]
    cases x.order.regulatorFirst with
    | true => exact .inr rfl
    | false => exact .inl rfl

/-- The channels, the regulator and the reports are those of another engine. -/
structure CabLeftAs (u d : Engine) : Prop where
  channels : u.channels = d.channels
  crg : u.crg = d.crg
  reports : u.reports = d.reports

theorem CabLeftAs.channel {u d : Engine} (h : CabLeftAs u d) (c : ChannelNo) : u.channel c = d.channel c := by
  simp [Engine.channel, h.channels]

theorem CabLeftAs.order {u d : Engine} (h : CabLeftAs u d) (c : ChannelNo) : u.order c = d.order c := by
  simp [Engine.order, h.channel]

/-- The engine that the work of a full scan's end finds. -/
def State.foundBy (s : State) (f : Feedback) (ord : ScanOrder) : Engine := (s.eng.readForWork s.tab (s.scanInput f ord)).1

/-- What a full scan's end leaves where the engine is settled on channel 5 and every zone stands. -/
theorem endScan_cab {s : State} {f : Feedback} {ord : ScanOrder} (hend : s.atFullScanEnd f ord) (hz : ∀ z, s.zoneStands z)
    (hs : s.eng.settledOn 5) (ha : ReadFrom s.eng (s.foundBy f ord)) :
    ∃ d, s.CabJudged (s.foundBy f ord) d ∧ CabLeftAs (s.endScan .full f ord).eng d := by
  have hstands {b : Engine} (hb : ∀ z, (b.zone z).state = (s.eng.zone z).state) :
      b.judgeZones s.tab (Engine.grantScan s.tab) (s.scanInput f ord).readings = b := by
    refine judgeZones_stand _ fun z => ?_
    rw [hb]
    exact hz z
  have := grants_base
  have hgrants (heat : Bank (Option Int) 4) : Grants (s.foundBy f ord) (s.worksFive heat (s.foundBy f ord)) :=
    (via_channelWork (via_grantScan s.tab) _ _ _ _ _).it
  obtain ⟨y, w, hleft⟩ := endScan_worked hend
  obtain ⟨-, -, -, -, hfirst, -⟩ := hend
  obtain ⟨hothers, -, -⟩ := hs
  refine ⟨s.eng.workedOn s.tab (s.scanInput f ord), ⟨(s.eng.readForWork s.tab (s.scanInput f ord)).2, ?_⟩, ?_⟩
  · refine judgeWork_oneChannel (c := 5) hfirst (fun d hd => ?_) (fun e => ?_) (fun _ => rfl) (hstands ha.state)
      (hstands fun z => ((hgrants _).state z).trans (ha.state z))
    · rw [nth_ordersNow, hothers d hd]
    · rw [nth_ordersNow]
      rfl
  · rw [hleft]
    exact ⟨rfl, rfl, rfl⟩

/-! ### What the regulator reads of the cab -/

/-- An engine as the judgement of the cab finds it: regulator and zone states as the scan end found them, the verdicts
formed anew, no start pending. -/
structure Engine.SeesCab (e : Engine) (s : State) : Prop where
  crg : e.crg = s.eng.crg
  state : ∀ z, (e.zone z).state = (s.eng.zone z).state
  depleted : ∀ z, (e.zone z).depleted = depletedVerdict (s.tab.zone z).limits (Bank.nth s.sbe.formReadings z.idx)
  full : ∀ z, (e.zone z).full = fullVerdict (s.tab.zone z).limits (Bank.nth s.sbe.formReadings z.idx)
  pending : ∀ z, (e.zone z).pending = false

theorem Engine.SeesCab.putOrder {e : Engine} {s : State} (h : e.SeesCab s) (c : ChannelNo) (o : Option Order) :
    (e.putOrder c o).SeesCab s := ⟨h.crg, h.state, h.depleted, h.full, h.pending⟩

theorem seesCab_foundBy {s : State} {f : Feedback} {ord : ScanOrder} (ha : ReadFrom s.eng (s.foundBy f ord))
    (hp : ∀ z, (s.eng.zone z).pending = false) : (s.foundBy f ord).SeesCab s := by
  have := sameVerdicts_pends
  have := sameVerdicts_drives
  have hsame : SameVerdicts (s.eng.verdicts s.tab s.sbe.formReadings) (s.foundBy f ord) :=
    (((via_equalizeFall _ 1).trans (via_judgeMeters (via_grantScan s.tab) _ s.tab _)).trans (via_readFeedback _ _ _)).it
  refine ⟨ha.crg, ha.state, fun z => ?_, fun z => ?_, fun z => (ha.pending z).trans (hp z)⟩
  · rw [hsame.depleted, zone_verdicts]
  · rw [hsame.full, zone_verdicts]

/-- The pre-check of a path fails (R157). -/
def State.BarsPath (s : State) (n : PathNo) : Prop :=
  depletedVerdict (s.tab.zone (s.tab.entry n).source).limits (Bank.nth s.sbe.formReadings (s.tab.entry n).source.idx) = true
  ∨ (s.eng.zone (s.tab.entry n).source).state = .lowTrip
  ∨ fullVerdict (s.tab.zone (s.tab.entry n).sink).limits (Bank.nth s.sbe.formReadings (s.tab.entry n).sink.idx) = true
  ∨ (s.eng.zone (s.tab.entry n).sink).state = .highTrip

/-- The cab at a mean temperature wants a direction by a path (R157). -/
def State.WantsPath (s : State) (mean : Int) (w : Direction) (n : PathNo) : Prop :=
  (w = .heating ∧ mean < s.eng.crg.target - s.eng.crg.settings.deadband ∧ s.eng.crg.settings.heatPath = some n
    ∨ w = .cooling ∧ s.eng.crg.target + s.eng.crg.settings.deadband < mean ∧ s.eng.crg.settings.coolPath = some n)
  ∧ ¬ s.BarsPath n

/-- The internal segment of a path at the rate of a mean temperature (R158, R159). -/
def State.cabCopy (s : State) (mean : Int) (n : PathNo) : Copy :=
  internalCopy n (comfortRate s.eng.crg.settings.gain s.eng.crg.target mean (s.tab.entry n).capacity)

/-- The internal segment passes its checks (R158). -/
def State.CopyPasses (s : State) (mean : Int) (n : PathNo) : Prop :=
  validate s.tab 3 none (s.cabCopy mean n) = none ∧ s.eng.setup s.tab .regulator (s.cabCopy mean n) = none

theorem State.WantsPath.ne_resting {s : State} {mean : Int} {w : Direction} {n : PathNo} (h : s.WantsPath mean w n) :
    w ≠ .resting := by
  rcases h.1 with ⟨rfl, -⟩ | ⟨rfl, -⟩ <;> nofun

section
variable {e : Engine} {s : State} (h : e.SeesCab s) {mean : Int}
include h

theorem precheckFails_iff (n : PathNo) : e.precheckFails (s.tab.entry n) = true ↔ s.BarsPath n := by
  simp only [Engine.precheckFails, h.state, h.depleted, h.full, Bool.or_eq_true, decide_eq_true_eq, State.BarsPath, or_assoc]

/-- A path whose pre-check does not fail is wanted where the band asks for its direction. -/
theorem wants_of_wantsPath {w : Direction} {n : PathNo} (hw : s.WantsPath mean w n) :
    e.wants s.tab mean = w ∧ pathSetting e.crg.settings w = some n := by
  obtain ⟨hband, hbars⟩ := hw
  have hcheck : e.precheckFails (s.tab.entry n) = false := Bool.eq_false_iff.2 fun k => hbars ((precheckFails_iff h n).1 k)
  have hasks : bandWants s.eng.crg.target s.eng.crg.settings.deadband mean = w ∧ pathSetting s.eng.crg.settings w = some n := by
    rcases hband with ⟨rfl, hcold, hn⟩ | ⟨rfl, hhot, hn⟩
    · exact ⟨if_pos hcold, hn⟩
    · exact ⟨(if_neg (by omega)).trans (if_pos hhot), hn⟩
  obtain ⟨hdir, hn⟩ := hasks
  simp [Engine.wants, h.crg, hdir, hn, hcheck]

/-- Where no path is wanted the regulator rests. -/
theorem wants_resting (hr : ∀ w n, ¬ s.WantsPath mean w n) : e.wants s.tab mean = .resting := by
  unfold Engine.wants
  dsimp only
  rw [h.crg]
  split
  · rfl
  · rename_i n hn
    split
    · rfl
    · rename_i hcheck
      have hbars : ¬ s.BarsPath n := fun k => hcheck ((precheckFails_iff h n).2 k)
      unfold bandWants at hn ⊢
      split at hn
      · rename_i hcold
        exact absurd ⟨.inl ⟨rfl, hcold, hn⟩, hbars⟩ (hr .heating n)
      · split at hn
        · rename_i hhot
          exact absurd ⟨.inr ⟨rfl, hhot, hn⟩, hbars⟩ (hr .cooling n)
        · cases hn

theorem comfortRateFor_eq (n : PathNo) : e.comfortRateFor s.tab n mean
    = comfortRate s.eng.crg.settings.gain s.eng.crg.target mean (s.tab.entry n).capacity := by
  rw [Engine.comfortRateFor, h.crg]

theorem setup_seesCab (w : Owner) (x : Copy) : e.setup s.tab w x = s.eng.setup s.tab w x := by
  have hstates : e.zoneStates = s.eng.zoneStates := funext h.state
  rw [Engine.setup, hstates, Engine.setup]

theorem checkInternal_passes {n : PathNo} (hp : s.CopyPasses mean n) :
    e.checkInternal s.tab (s.cabCopy mean n) = none := by
  obtain ⟨hvalid, hsetup⟩ := hp
  rw [Engine.checkInternal, hvalid, setup_seesCab h]
  exact hsetup

theorem pendingFor_seesCab (t : Tables) (c : ChannelNo) : e.pendingFor t c = false := by
  simp [Engine.pendingFor, h.pending]

end

/-! ### The judgement of the cab by what it wants (R157) -/

section
variable {e : Engine} {s : State} (h : e.SeesCab s) {mean : Int} {d : Direction} (hd : s.eng.crg.state = .active d)
  (hm : (Bank.nth s.sbe.formReadings Zone.cabin.idx).mean = some mean)
include h hd hm

theorem judgesCab_active : s.judgesCab e = e.judgeCab s.tab (Engine.grantScan s.tab) d mean := by
  have hcrg : e.crg.state = .active d := (congrArg Regulator.state h.crg).trans hd
  unfold State.judgesCab Engine.comfortJudge
  rw [hcrg, hm]

theorem judgesCab_stays (hrest : d = .resting) (hr : ∀ w n, ¬ s.WantsPath mean w n) : s.judgesCab e = e := by
  rw [judgesCab_active h hd hm]
  unfold Engine.judgeCab
  rw [wants_resting h hr, hrest]

theorem judgesCab_ends (hrest : d ≠ .resting) (hr : ∀ w n, ¬ s.WantsPath mean w n) :
    s.judgesCab e = e.comfortEnd s.tab (Engine.grantScan s.tab) := by
  rw [judgesCab_active h hd hm]
  unfold Engine.judgeCab
  rw [wants_resting h hr]
  cases d with
  | resting => exact absurd rfl hrest
  | heating | cooling => rfl

variable {w : Direction} {n : PathNo} (hw : s.WantsPath mean w n)
include hw

theorem judgesCab_starts (hrest : d = .resting) (ho : e.order 5 = none) :
    s.judgesCab e = e.comfortStart s.tab (Engine.grantScan s.tab) w n mean := by
  obtain ⟨hwants, hpath⟩ := wants_of_wantsPath h hw
  have hfree : ((e.order comfortChannel).isNone && !e.pendingFor s.tab comfortChannel) = true := by
    simp [pendingFor_seesCab h, show e.order comfortChannel = none from ho]
  rw [judgesCab_active h hd hm]
  unfold Engine.judgeCab
  rw [hwants]
  dsimp only
  rw [hpath, hrest]
  cases w with
  | resting => exact absurd rfl hw.ne_resting
  | heating | cooling => exact if_pos hfree

theorem judgesCab_renews (hwd : w = d) : s.judgesCab e = e.renewRate (s.cabCopy mean n).rate := by
  obtain ⟨hwants, hpath⟩ := wants_of_wantsPath h hw
  rw [judgesCab_active h hd hm]
  unfold Engine.judgeCab
  rw [hwants]
  dsimp only
  rw [hpath, ← hwd]
  cases w with
  | resting => exact absurd rfl hw.ne_resting
  | heating | cooling => exact (if_pos rfl).trans (congrArg _ (comfortRateFor_eq h n))

theorem judgesCab_redirects (hrest : d ≠ .resting) (hwd : w ≠ d) :
    s.judgesCab e = e.redirect s.tab (Engine.grantScan s.tab) w n mean := by
  obtain ⟨hwants, hpath⟩ := wants_of_wantsPath h hw
  rw [judgesCab_active h hd hm]
  unfold Engine.judgeCab
  rw [hwants]
  dsimp only
  rw [hpath]
  have hne := hw.ne_resting
  cases d with
  | resting => exact absurd rfl hrest
  | heating | cooling =>
    cases w with
    | resting => exact absurd rfl hne
    | heating | cooling => exact if_neg hwd

end

end Sys2Proof.Machine
end

section
/-! O32: the start of the regulator's order, its renewal, its end and its change of direction at a full scan's end. -/

namespace Sys2Proof.Machine

open Sys2Proof

/-! ### A lone set at the grant scan (R99) -/

/-- The scan over one claimed set of the order's channel grants the order or leaves it as it is. -/
theorem grantScan_lone {e : Engine} {t : Tables} {c : ChannelNo} {o : Order} {set : ClaimSet} (hclaims : e.mar.claims = [set])
    (hset : set.channel = c) (hcls : set.cls ≠ 0) (ho : e.order c = some o) :
    ((Engine.grantScan t e).order c = some o ∨ (Engine.grantScan t e).order c = some (o.granted t))
    ∧ (Engine.grantScan t e).crg = e.crg := by
  rw [grantScan_single hclaims (.inl hcls)]
  rcases settle_cases e t set with hgranted | ⟨m, hwaits⟩
  · rw [hgranted, order_grant, if_pos hset, ho]
    exact ⟨.inr rfl, (grant_leaves e t set).2⟩
  · rw [hwaits]
    exact ⟨.inl ho, rfl⟩

/-- An order that does not chain prefetches nothing (R65). -/
theorem prefetchOrder_unchained {o : Order} (h : o.copy.chains = false) (e : Engine) (t : Tables) : e.prefetchOrder t o = o := by
  simp [Engine.prefetchOrder, prefetchDue, h]

/-- An order taken where nothing is claimed is granted or waits (R53). -/
theorem takeOrder_lone {e : Engine} (t : Tables) {c : ChannelNo} {o : Order} (hclaims : e.mar.claims = []) (hcls : o.cls ≠ 0)
    (hchains : o.copy.chains = false) :
    ((e.takeOrder t (Engine.grantScan t) c o).order c = some o
      ∨ (e.takeOrder t (Engine.grantScan t) c o).order c = some (o.granted t))
    ∧ (e.takeOrder t (Engine.grantScan t) c o).crg = e.crg := by
  have hsubmit : ((e.putOrder c (some o)).submitBack t c o).mar.claims = [claimSetOf t c o] := by
    rw [submitBack_nil (e := e.putOrder c (some o)) t c o hclaims]
    rfl
  have horder : ((e.putOrder c (some o)).submitBack t c o).order c = some o := Engine.order_putOrder_self _ _ _
  obtain ⟨hscan, hcrg⟩ := grantScan_lone (t := t) (c := c) hsubmit rfl hcls horder
  unfold Engine.takeOrder Engine.prefetch
  rw [order_mapOrder, if_pos rfl, (mapOrder_leaves _ _ _).2, hcrg]
  refine ⟨hscan.imp (fun k => ?_) (fun k => ?_), rfl⟩
  · rw [k, Option.map_some, prefetchOrder_unchained hchains]
  · rw [k, Option.map_some, prefetchOrder_unchained (o := o.granted t) hchains]

/-! ### The start of an order (R158, R160) -/

/-- The order that the regulator starts on a path (R158). -/
def State.cabOrder (s : State) (mean : Int) (n : PathNo) : Order :=
  newOrder .regulator 0 3 none (s.cabCopy mean n) s.eng.crg.settings.waitLimit

section
variable {e : Engine} {s : State} (h : e.SeesCab s) {mean : Int} {n : PathNo}
include h

theorem comfortStart_passes (hp : s.CopyPasses mean n) (k : Engine → Engine) (w : Direction) :
    e.comfortStart s.tab k w n mean = (e.putRegState (.active w)).takeOrder s.tab k 5 (s.cabOrder mean n) := by
  have hcheck := checkInternal_passes h hp
  unfold Engine.comfortStart
  rw [comfortRateFor_eq h, h.crg]
  unfold State.cabCopy at hcheck
  simp only [hcheck]
  rfl

theorem comfortStart_fails {g : Ending} (hg : e.checkInternal s.tab (s.cabCopy mean n) = some g) (k : Engine → Engine)
    (w : Direction) :
    e.comfortStart s.tab k w n mean = (e.regulatorTakes .regulator g).closeOrder 5 (s.cabOrder mean n) g := by
  unfold Engine.comfortStart
  rw [comfortRateFor_eq h, h.crg]
  unfold State.cabCopy at hg
  simp only [hg]
  rfl

end

/-- A zone that is not in the trip that a path would make worse stops a setup by being BLIND alone (R52). -/
theorem setupZone_cause {zones : Zone → ZoneState} {owner : Owner} {worse : ZoneState} {z : Zone} {g : Ending}
    (hz : zones z ≠ worse) (hg : setupZone zones owner worse z = some g) : g.cause = .zoneBlind := by
  unfold setupZone at hg
  split at hg
  · cases hg
    rfl
  · split at hg
    · rename_i hworse
      exact absurd hworse.1 hz
    · cases hg

/-- The pre-check leaves BLIND as the one cause for which a setup fails (R52, R157). -/
theorem setup_cause {s : State} {x : Copy} (hbars : ¬ s.BarsPath x.path) {g : Ending}
    (hg : s.eng.setup s.tab .regulator x = some g) : g.cause = .zoneBlind := by
  unfold Engine.setup setupCheck at hg
  split at hg
  · rename_i g' hsource
    cases hg
    exact setupZone_cause (fun k => hbars (.inr (.inl k))) hsource
  · exact setupZone_cause (fun k => hbars (.inr (.inr (.inr k)))) hg

/-- An end of the regulator's order that leaves it SUSPENDED forms a record (R160). -/
theorem closeOrder_recorded {o : Order} (hw : o.owner = .regulator) {g : Ending}
    (hg : Owner.regulator.formsRecord g.cause = true) (e : Engine) (c : ChannelNo) :
    e.closeOrder c o g = (e.hand (.completion (recordOf c o g))).putChannel c ⟨none, true⟩ := by
  simp [Engine.closeOrder, hw, hg]

/-! ### The regulator's order under way -/

section
variable {e : Engine} {o : Order} (ho : e.order 5 = some o) (hw : o.owner = .regulator)
include ho hw

theorem renewRate_eq (rate : Nat) : e.renewRate rate = e.putOrder 5 (some (o.renewed rate)) := by
  rw [Engine.renewRate, comfortOrder_some ho hw]
  rfl

theorem comfortEnd_imposes (t : Tables) (k : Engine → Engine) :
    e.comfortEnd t k = (e.putRegState (.active .resting)).imposeEnd t k 5 (.plain .complete) := by
  rw [Engine.comfortEnd, comfortOrder_some (e := e.putRegState (.active .resting)) ho hw]
  rfl

/-- The end of a WAITING order leaves nothing claimed and channel 5 IDLE (R91, R160). -/
theorem comfortEnd_waiting (t : Tables) (hp : o.phase = .waiting) (hclaims : ∀ g ∈ e.mar.claims, g.channel = 5)
    (hpending : ∀ z, (e.zone z).pending = false) : e.comfortEnd t (Engine.grantScan t)
      = ((e.putRegState (.active .resting)).withdraw 5).putOrder 5 none := by
  have hnone : (((e.putRegState (.active .resting)).withdraw 5).putOrder 5 none).mar.claims = [] := by
    show e.mar.claims.filter (fun s => decide (s.channel ≠ 5)) = []
    simpa [List.filter_eq_nil_iff] using hclaims
  have htakes : ((e.putRegState (.active .resting)).withdraw 5).regulatorTakes o.owner (.plain .complete)
      = (e.putRegState (.active .resting)).withdraw 5 := by
    rw [hw]
    rfl
  rw [comfortEnd_imposes ho hw, imposeEnd_waiting (e := e.putRegState (.active .resting)) t _ ho hp, Engine.endWaiting, htakes,
    closeOrder_unrecorded hw rfl, grantScan_nil hnone]
  exact servePending_none _ _ _ _ hpending

/-- The end of an order in SETTING or RUNNING is a run-down (R78, R160). -/
theorem comfortEnd_active (t : Tables) (k : Engine → Engine) (hp : o.phase = .setting ∨ o.phase = .running)
    (hn : (t.entry o.copy.path).runDown ≠ 0) : e.comfortEnd t k
      = (e.putRegState (.active .resting)).putOrder 5 (some (o.endingFor t (.plain .complete) false)) := by
  rw [comfortEnd_imposes ho hw, imposeEnd_active (e := e.putRegState (.active .resting)) t k ho hp, Engine.enterEnd, hw,
    Engine.endIfImmediate, if_neg hn]
  rfl

end

section
variable {e : Engine} {s : State} (h : e.SeesCab s) {o : Order} (ho : e.order 5 = some o) (hw : o.owner = .regulator)
  {mean : Int} {n : PathNo} (hp : s.CopyPasses mean n) (k : Engine → Engine) (w : Direction)
include h ho hw hp

theorem redirect_waiting (hphase : o.phase = .waiting) : e.redirect s.tab k w n mean
    = (e.putRegState (.active w)).redirectWaiting s.tab k o (s.cabCopy mean n) := by
  have hcheck := checkInternal_passes h hp
  unfold State.cabCopy at hcheck
  unfold Engine.redirect
  rw [comfortOrder_some ho hw, comfortRateFor_eq h]
  simp only [hphase, hcheck]
  rfl

/-- A direction change of an order in SETTING or RUNNING is a transition run-down to the new copy (R69, R162). -/
theorem redirect_active (hphase : o.phase = .setting ∨ o.phase = .running) (hn : (s.tab.entry o.copy.path).runDown ≠ 0) :
    e.redirect s.tab k w n mean = (e.putRegState (.active w)).putOrder 5
      (some (({ o with next := some (s.cabCopy mean n) } : Order).endingToNext s.tab)) := by
  have hcheck := checkInternal_passes h hp
  unfold State.cabCopy at hcheck
  have henters : e.redirect s.tab k w n mean = (e.putRegState (.active w)).enterTransition s.tab k 5
      { o with next := some (s.cabCopy mean n) } := by
    unfold Engine.redirect
    rw [comfortOrder_some ho hw, comfortRateFor_eq h]
    rcases hphase with hphase | hphase <;> simp only [hphase, hcheck] <;> rfl
  rw [henters, Engine.enterTransition, Engine.endIfImmediate, if_neg hn]

end

/-- An order whose copy a direction change replaces while it waits: granted at once, or waiting as long as before (R162). -/
theorem redirectWaiting_lone {e : Engine} (t : Tables) {o : Order} (hcls : o.cls ≠ 0) (hp : o.phase = .waiting)
    (hclaims : ∀ g ∈ e.mar.claims, g.channel = 5) (x : Copy) :
    (e.redirectWaiting t (Engine.grantScan t) o x).crg = e.crg
    ∧ ∃ o', (e.redirectWaiting t (Engine.grantScan t) o x).order 5 = some o' ∧ o'.owner = o.owner ∧ o'.copy = x
      ∧ (o'.phase = .waiting ∧ o'.waitTimer = o.waitTimer ∨ o'.phase = .setting) := by
  unfold Engine.redirectWaiting
  dsimp only
  generalize hmade : ({ o with copy := x, segTime := 0, runFlag := false, meterHeld := _ } : Order) = made
  have hnone : e.mar.claims.filter (fun s => decide (s.channel ≠ 5)) = [] := by
    simpa [List.filter_eq_nil_iff] using hclaims
  have hsubmit : (((e.putOrder 5 (some made)).withdraw 5).submitFront t 5 made).mar.claims = [claimSetOf t 5 made] := by
    show insertFront (e.mar.claims.filter (fun s => decide (s.channel ≠ 5))) (claimSetOf t 5 made) = _
    rw [hnone]
    rfl
  have horder : (((e.putOrder 5 (some made)).withdraw 5).submitFront t 5 made).order 5 = some made :=
    Engine.order_putOrder_self e 5 _
  have hmadeCls : (claimSetOf t 5 made).cls ≠ 0 := by
    rw [← hmade]
    exact hcls
  obtain ⟨hscan, hcrg⟩ := grantScan_lone (t := t) (c := 5) hsubmit rfl hmadeCls horder
  refine ⟨hcrg, ?_⟩
  rcases hscan with hscan | hscan
  · exact ⟨made, hscan, by rw [← hmade], by rw [← hmade], .inl ⟨by rw [← hmade]; exact hp, by rw [← hmade]⟩⟩
  · exact ⟨_, hscan, by rw [← hmade]; rfl, by rw [← hmade]; rfl, .inr rfl⟩

end Sys2Proof.Machine
end

section
/-! O32: channel 5's own work before and after the judgement of the cab. -/

namespace Sys2Proof.Machine

open Sys2Proof

/-! ### The valves that the work of a scan end finds -/

/-- Every valve's state and commanded position are as they were. -/
def SameDrive (a b : Engine) : Prop :=
  ∀ v, (b.valve v).state = (a.valve v).state ∧ (b.valve v).commanded = (a.valve v).commanded

theorem SameDrive.trans {a b c : Engine} (h : SameDrive a b) (k : SameDrive b c) : SameDrive a c :=
  fun v => ⟨(k v).1.trans (h v).1, (k v).2.trans (h v).2⟩

theorem SameDrive.of_ost {a b : Engine} (h : b.ost = a.ost) : SameDrive a b := fun v => by
  simp [Engine.valve, h]

theorem SameDrive.valvesStand {a b : Engine} (h : SameDrive a b) (p : PathEntry) : b.valvesStand p = a.valvesStand p := by
  simp only [Engine.valvesStand, h _]

/-- A reading changes neither a valve's state nor its drive (R119). -/
theorem scanned_drive (v : ValveRec) (x : Option Int) :
    (v.scanned x).state = v.state ∧ (v.scanned x).commanded = v.commanded := by
  have hread : (v.readPosition x).state = v.state ∧ (v.readPosition x).commanded = v.commanded := by
    unfold ValveRec.readPosition
    split <;> exact ⟨rfl, rfl⟩
  have haged (v : ValveRec) : v.aged.state = v.state ∧ v.aged.commanded = v.commanded := by
    unfold ValveRec.aged
    split
    · exact ⟨rfl, rfl⟩
    · exact ⟨rfl, rfl⟩
    · split <;> exact ⟨rfl, rfl⟩
  exact ⟨(haged _).1.trans hread.1, (haged _).2.trans hread.2⟩

theorem sameDrive_readFeedback (e : Engine) (straps : Straps) (f : Feedback) : SameDrive e (e.readFeedback straps f) := by
  have houtputs : (allOutputs.foldl (fun e o => if outputPresent straps o then
      e.putOutput o ((e.output o).read (outputKind o) (Bank.nth f.outputs o)) else e) e).ost.valves = e.ost.valves := by
    refine List.foldlRecOn (motive := fun x : Engine => x.ost.valves = e.ost.valves) _ _ rfl fun x hx o _ => ?_
    split <;> exact hx
  have hbefore : SameDrive e (allOutputs.foldl (fun e o => if outputPresent straps o then
      e.putOutput o ((e.output o).read (outputKind o) (Bank.nth f.outputs o)) else e) e) := fun v => by
    simp [Engine.valve, houtputs]
  refine List.foldlRecOn (motive := SameDrive e) _ _ hbefore fun x hx v _ => hx.trans fun u => ?_
  by_cases hv : v = u
  · subst hv
    rw [Engine.valve_putValve_self]
    exact scanned_drive _ _
  · rw [Engine.valve_putValve_ne _ _ hv]
    exact ⟨rfl, rfl⟩

/-- Where every order waits or sets, nothing commands a valve before the work of a scan end. -/
theorem sameDrive_foundBy {s : State} (h : s.eng.Unmetered) (f : Feedback) (ord : ScanOrder) :
    SameDrive s.eng (s.foundBy f ord) := by
  have hverdicts : SameDrive s.eng (s.eng.verdicts s.tab s.sbe.formReadings) :=
    List.foldlRecOn (motive := SameDrive s.eng) _ _ (.of_ost rfl) fun _ hx _ _ => hx
  obtain ⟨comp, hfall⟩ := equalizeFall_mar (s.eng.verdicts s.tab s.sbe.formReadings) 1
  have hunmetered : ((s.eng.verdicts s.tab s.sbe.formReadings).equalizeFall 1).Unmetered := fun c o ho =>
    h c o (((keepsWork_equalizeFall (s.eng.verdicts s.tab s.sbe.formReadings) 1).readFrom.order c).symm.trans ho)
  obtain ⟨ms, hms⟩ := judgeMeters_unmetered s.tab (Engine.grantScan s.tab) hunmetered
    (fun m => Bank.nth (s.scanInput f ord).meters m.idx)
  have hjudged : SameDrive (s.eng.verdicts s.tab s.sbe.formReadings)
      (((s.eng.verdicts s.tab s.sbe.formReadings).equalizeFall 1).judgeMeters s.tab (Engine.grantScan s.tab)
        (fun m => Bank.nth (s.scanInput f ord).meters m.idx)).1 := by
    rw [hms, hfall]
    exact .of_ost rfl
  exact (hverdicts.trans hjudged).trans (sameDrive_readFeedback _ _ _)

/-! ### What channel 5's own work makes of an order (R49) -/

/-- The same order, of the same copy and in the same state. -/
structure Order.StaysAs (o' o : Order) : Prop where
  owner : o'.owner = o.owner
  phase : o'.phase = o.phase
  copy : o'.copy = o.copy

/-- An order that a scan end's own work leaves in SETTING or RUNNING (R56, R62). -/
def Engine.Keeps (e : Engine) (t : Tables) (o : Order) : Prop :=
  o.phase = .setting ∧ e.valvesStand (o.path t) = false
  ∨ o.phase = .running ∧ o.remaining = none ∧ o.copy.timeLimit = 0 ∧ o.copy.chains = false
    ∧ (e.zone (o.path t).source).depleted = false ∧ (e.zone (o.path t).sink).full = false

theorem Engine.Keeps.active {e : Engine} {t : Tables} {o : Order} (h : e.Keeps t o) :
    o.phase = .setting ∨ o.phase = .running := h.imp And.left And.left

theorem settingWork_keeps {e : Engine} {t : Tables} (k : Engine → Engine) (c : ChannelNo) {o : Order}
    (hv : e.valvesStand (o.path t) = false) :
    ∃ o', e.settingWork t k c o = e.putOrder c (some o') ∧ o'.StaysAs o := by
  refine ⟨_, if_neg ?_, rfl, rfl, rfl⟩
  rw [hv]
  nofun

theorem runningWork_keeps {e : Engine} {t : Tables} (k : Engine → Engine) (f : ScanFigures) (c : ChannelNo) {o : Order}
    (hr : o.remaining = none) (ht : o.copy.timeLimit = 0) (hc : o.copy.chains = false)
    (hs : (e.zone (o.path t).source).depleted = false) (hf : (e.zone (o.path t).sink).full = false) :
    ∃ o', e.runningWork t k f c o = e.putOrder c (some o') ∧ o'.StaysAs o := by
  generalize hran : o.ranScan (f.counted (o.path t)) f.due = o1
  have hstays : o1.StaysAs o ∧ o1.remaining = none := by
    rw [← hran]
    simp only [Order.ranScan, Order.countSegment, hr]
    exact ⟨⟨rfl, rfl, rfl⟩, trivial⟩
  obtain ⟨hsame, hremaining⟩ := hstays
  have hends : e.segmentEnd (o.path t) o1 = none := by
    simp [Engine.segmentEnd, hremaining, hsame.copy, ht, hs, hf]
  refine ⟨o1.regulated (o1.path t) (e.meter (o.path t).meter), ?_, ?_⟩
  · simp only [Engine.runningWork, hran, hends, prefetchOrder_unchained (hsame.copy ▸ hc), Engine.takeCourse]
  · unfold Order.regulated
    dsimp only
    split
    all_goals exact ⟨hsame.owner, hsame.phase, hsame.copy⟩

section
variable {s : State} (heat : Bank (Option Int) 4) {e : Engine} {b o : Order} (hb : s.eng.order 5 = some b)
  (ho : e.order 5 = some o) (hw : b.owner = o.owner)
include hb ho hw

theorem worksFive_waiting (hbp : b.phase = .waiting) (hp : o.phase = .waiting) :
    s.worksFive heat e = e.putOrder 5 (some o.waited) := by
  simp [State.worksFive, Engine.channelWork, hb, ho, hw, hbp, hp, Engine.waitingWork]

/-- An order that was granted at the scan end only ages (R49). -/
theorem worksFive_granted (hbp : b.phase = .waiting) (hp : o.phase = .setting) :
    s.worksFive heat e = e.putOrder 5 (some { o with orderTime := o.orderTime + 1 }) := by
  simp [State.worksFive, Engine.channelWork, hb, ho, hw, hbp, hp]

/-- An order that has entered ENDING at the scan end runs down (R140). -/
theorem worksFive_ending {r : RunDown} (hp : o.phase = .ending r) :
    ∃ h, s.worksFive heat e = e.putOrder 5 (some (o.ranDown r h)) := by
  refine ⟨(ScanFigures.mk heat .separate).counted (o.path s.tab), ?_⟩
  rw [State.worksFive, hb, channelWork_ending _ _ _ ho hw hp, endingWork_separate]

theorem worksFive_keeps (hbp : b.phase = o.phase) (hk : e.Keeps s.tab o) :
    ∃ o', s.worksFive heat e = e.putOrder 5 (some o') ∧ o'.StaysAs o := by
  rcases hk with ⟨hp, hv⟩ | ⟨hp, hr, ht, hc, hs, hf⟩
  · have hwork : s.worksFive heat e = e.settingWork s.tab (Engine.grantScan s.tab) 5 o := by
      simp [State.worksFive, Engine.channelWork, hb, ho, hw, hbp, hp]
    rw [hwork]
    exact settingWork_keeps _ _ hv
  · have hwork : s.worksFive heat e = e.runningWork s.tab (Engine.grantScan s.tab) ⟨heat, .separate⟩ 5 o := by
      simp [State.worksFive, Engine.channelWork, hb, ho, hw, hbp, hp]
    rw [hwork]
    exact runningWork_keeps _ _ _ hr ht hc hs hf

end

/-- Channel 5 has no work of its own for an order that was not there when the scan end began (R49). -/
theorem judgesCab_of_idle {s : State} {a d : Engine} (h : s.CabJudged a d) (ho : s.eng.order 5 = none) :
    d = s.judgesCab a := by
  have hwork (heat : Bank (Option Int) 4) (e : Engine) : s.worksFive heat e = e := by
    rw [State.worksFive, ho, channelWork_new]
  obtain ⟨heat, h | h⟩ := h <;> rw [h, hwork]

/-! ### A WAITING order of the regulator at the scan end -/

/-- An order with the rate of its copy replaced. -/
def Order.atRate (o : Order) (rate : Nat) : Order := { o with copy := { o.copy with rate := rate } }

/-- An order whose copy is in use has its rate renewed there (R159). -/
theorem renewed_eq {o : Order} (hp : o.phase = .waiting ∨ o.phase = .setting ∨ o.phase = .running) (rate : Nat) :
    o.renewed rate = o.atRate rate := by
  rcases hp with hp | hp | hp <;> simp [Order.renewed, Order.atRate, hp]

section
variable {s : State} {a d : Engine} (h : a.SeesCab s) (hj : s.CabJudged a d) {mean : Int} {dir : Direction}
  (hd : s.eng.crg.state = .active dir) (hm : (Bank.nth s.sbe.formReadings Zone.cabin.idx).mean = some mean)
  {o : Order} (hs : s.eng.order 5 = some o) (ha : a.order 5 = some o) (hw : o.owner = .regulator)
include h hj hd hm hs ha hw

section
variable (hp : o.phase = .waiting)
include hp

theorem waiting_renewed {n : PathNo} (hn : s.WantsPath mean dir n) : d.crg = s.eng.crg
    ∧ d.order 5 = some { o with
      copy := { o.copy with rate := (s.cabCopy mean n).rate }, orderTime := o.orderTime + 1, waitTimer := o.waitTimer + 1 } := by
  obtain ⟨heat, rfl | rfl⟩ := hj
  · have howned : (a.putOrder 5 (some o.waited)).order 5 = some o.waited := Engine.order_putOrder_self _ _ _
    rw [worksFive_waiting heat hs ha rfl hp hp, judgesCab_renews (h.putOrder _ _) hd hm hn rfl, renewRate_eq howned hw,
      renewed_eq (o := o.waited) (.inl hp)]
    exact ⟨h.crg, Engine.order_putOrder_self _ _ _⟩
  · rw [judgesCab_renews h hd hm hn rfl, renewRate_eq ha hw, renewed_eq (.inl hp)]
    rw [worksFive_waiting (o := o.atRate (s.cabCopy mean n).rate) heat hs (Engine.order_putOrder_self _ _ _) rfl hp hp]
    exact ⟨h.crg, Engine.order_putOrder_self _ _ _⟩

variable (hrest : dir ≠ .resting) (hclaims : ∀ g ∈ a.mar.claims, g.channel = 5)
include hrest hclaims

theorem waiting_ended (hr : ∀ w n, ¬ s.WantsPath mean w n) :
    d.crg = { s.eng.crg with state := .active .resting } ∧ d.order 5 = none := by
  rw [← h.crg]
  obtain ⟨heat, rfl | rfl⟩ := hj
  · have howned : (a.putOrder 5 (some o.waited)).order 5 = some o.waited := Engine.order_putOrder_self _ _ _
    rw [worksFive_waiting heat hs ha rfl hp hp, judgesCab_ends (h.putOrder _ _) hd hm hrest hr,
      comfortEnd_waiting howned hw s.tab hp hclaims h.pending]
    exact ⟨rfl, Engine.order_putOrder_self _ _ _⟩
  · have hnone := Engine.order_putOrder_self ((a.putRegState (.active .resting)).withdraw 5) 5 none
    rw [judgesCab_ends h hd hm hrest hr, comfortEnd_waiting ha hw s.tab hp hclaims h.pending, State.worksFive,
      channelWork_idle _ _ _ _ _ _ hnone]
    exact ⟨rfl, hnone⟩

theorem waiting_redirected (hcls : o.cls ≠ 0) {w : Direction} {n : PathNo} (hwd : w ≠ dir) (hn : s.WantsPath mean w n)
    (hpass : s.CopyPasses mean n) : d.crg = { s.eng.crg with state := .active w } ∧ ∃ o', d.order 5 = some o'
      ∧ o'.copy = s.cabCopy mean n ∧ (o'.phase = .waiting ∧ o'.waitTimer = o.waitTimer + 1 ∨ o'.phase = .setting) := by
  rw [← h.crg]
  obtain ⟨heat, rfl | rfl⟩ := hj
  · have howned : (a.putOrder 5 (some o.waited)).order 5 = some o.waited := Engine.order_putOrder_self _ _ _
    obtain ⟨hcrg, o', ho', -, hcopy, hphase⟩ := redirectWaiting_lone
      (e := (a.putOrder 5 (some o.waited)).putRegState (.active w)) s.tab (o := o.waited) hcls hp hclaims (s.cabCopy mean n)
    rw [worksFive_waiting heat hs ha rfl hp hp, judgesCab_redirects (h.putOrder _ _) hd hm hn hrest hwd,
      redirect_waiting (h.putOrder _ _) howned hw hpass _ _ hp]
    exact ⟨hcrg, o', ho', hcopy, hphase⟩
  · obtain ⟨hcrg, o', ho', howner, hcopy, hphase⟩ := redirectWaiting_lone
      (e := a.putRegState (.active w)) s.tab hcls hp hclaims (s.cabCopy mean n)
    rw [judgesCab_redirects h hd hm hn hrest hwd, redirect_waiting h ha hw hpass _ _ hp]
    rcases hphase with ⟨hphase, htimer⟩ | hphase
    · rw [worksFive_waiting heat hs ho' howner.symm hp hphase]
      exact ⟨hcrg, _, Engine.order_putOrder_self _ _ _, hcopy, .inl ⟨hphase, congrArg (· + 1) htimer⟩⟩
    · rw [worksFive_granted heat hs ho' howner.symm hp hphase]
      exact ⟨hcrg, _, Engine.order_putOrder_self _ _ _, hcopy, .inr hphase⟩

end

/-! ### An order of the regulator in SETTING or RUNNING at the scan end -/

variable (hk : a.Keeps s.tab o)
include hk

theorem active_renewed {n : PathNo} (hn : s.WantsPath mean dir n) : d.crg = s.eng.crg ∧ ∃ o', d.order 5 = some o'
    ∧ o'.phase = o.phase ∧ o'.copy = { o.copy with rate := (s.cabCopy mean n).rate } := by
  have hactive := hk.active
  obtain ⟨heat, rfl | rfl⟩ := hj
  · obtain ⟨o1, hwork, hstays⟩ := worksFive_keeps heat hs ha rfl rfl hk
    have howned : (a.putOrder 5 (some o1)).order 5 = some o1 := Engine.order_putOrder_self _ _ _
    rw [hwork, judgesCab_renews (h.putOrder _ _) hd hm hn rfl, renewRate_eq howned (hstays.owner.trans hw),
      renewed_eq (by rw [hstays.phase]; exact .inr hactive)]
    exact ⟨h.crg, _, Engine.order_putOrder_self _ _ _, hstays.phase, by rw [Order.atRate, hstays.copy]⟩
  · rw [judgesCab_renews h hd hm hn rfl, renewRate_eq ha hw, renewed_eq (.inr hactive)]
    obtain ⟨o1, hwork, hstays⟩ := worksFive_keeps (o := o.atRate (s.cabCopy mean n).rate) heat hs
      (Engine.order_putOrder_self a 5 _) rfl rfl hk
    rw [hwork]
    exact ⟨h.crg, o1, Engine.order_putOrder_self _ _ _, hstays.phase, hstays.copy⟩

variable (hrest : dir ≠ .resting) (hdown : (s.tab.entry o.copy.path).runDown ≠ 0)
include hrest hdown

theorem active_ended (hr : ∀ w n, ¬ s.WantsPath mean w n) : d.crg = { s.eng.crg with state := .active .resting }
    ∧ ∃ o', d.order 5 = some o' ∧ o'.endsWith (.plain .complete) := by
  rw [← h.crg]
  have hactive := hk.active
  obtain ⟨heat, rfl | rfl⟩ := hj
  · obtain ⟨o1, hwork, hstays⟩ := worksFive_keeps heat hs ha rfl rfl hk
    have howned : (a.putOrder 5 (some o1)).order 5 = some o1 := Engine.order_putOrder_self _ _ _
    rw [hwork, judgesCab_ends (h.putOrder _ _) hd hm hrest hr, comfortEnd_active howned (hstays.owner.trans hw) _ _
      (by rw [hstays.phase]; exact hactive) (by rw [hstays.copy]; exact hdown)]
    exact ⟨rfl, _, Engine.order_putOrder_self _ _ _, _, rfl, rfl⟩
  · rw [judgesCab_ends h hd hm hrest hr, comfortEnd_active ha hw _ _ hactive hdown]
    obtain ⟨x, hwork⟩ := worksFive_ending (o := o.endingFor s.tab (.plain .complete) false) heat hs
      (Engine.order_putOrder_self (a.putRegState (.active .resting)) 5 _) rfl rfl
    rw [hwork]
    exact ⟨rfl, _, Engine.order_putOrder_self _ _ _, _, rfl, rfl⟩

theorem active_redirected {w : Direction} {n : PathNo} (hwd : w ≠ dir) (hn : s.WantsPath mean w n)
    (hpass : s.CopyPasses mean n) : d.crg = { s.eng.crg with state := .active w } ∧ ∃ o' r, d.order 5 = some o'
      ∧ o'.phase = .ending r ∧ r.purpose = .transition ∧ o'.next = some (s.cabCopy mean n) := by
  rw [← h.crg]
  have hactive := hk.active
  obtain ⟨heat, rfl | rfl⟩ := hj
  · obtain ⟨o1, hwork, hstays⟩ := worksFive_keeps heat hs ha rfl rfl hk
    have howned : (a.putOrder 5 (some o1)).order 5 = some o1 := Engine.order_putOrder_self _ _ _
    rw [hwork, judgesCab_redirects (h.putOrder _ _) hd hm hn hrest hwd, redirect_active (h.putOrder _ _) howned
      (hstays.owner.trans hw) hpass _ _ (by rw [hstays.phase]; exact hactive) (by rw [hstays.copy]; exact hdown)]
    exact ⟨rfl, _, _, Engine.order_putOrder_self _ _ _, rfl, rfl, rfl⟩
  · rw [judgesCab_redirects h hd hm hn hrest hwd, redirect_active h ha hw hpass _ _ hactive hdown]
    obtain ⟨x, hwork⟩ := worksFive_ending (o := ({ o with next := some (s.cabCopy mean n) } : Order).endingToNext s.tab)
      heat hs (Engine.order_putOrder_self (a.putRegState (.active w)) 5 _) rfl rfl
    rw [hwork]
    exact ⟨rfl, _, _, Engine.order_putOrder_self _ _ _, rfl, rfl, rfl⟩

end

end Sys2Proof.Machine
end

section
/-! O32: a scan end at which channel 5 is IDLE, and the obligation. -/

namespace Sys2Proof.Machine

open Sys2Proof

/-! ### An IDLE channel 5 at the scan end -/

section
variable {s : State} {a d : Engine} (h : a.SeesCab s) (hj : s.CabJudged a d) (hs : s.eng.order 5 = none)
  (ha : a.order 5 = none)
include h hj hs ha

/-- HELD ends unless the lockout stands (R161). -/
theorem cabIdle_held (hst : s.eng.crg.state = .held) : d.order 5 = none
    ∧ d.crg = { s.eng.crg with state := if s.cfc.lockout then .held else .active .resting } := by
  have hcrg : a.crg.state = .held := (congrArg Regulator.state h.crg).trans hst
  have hends : a.heldEnds s.tab s.cfc.lockout = !s.cfc.lockout := by
    simp [Engine.heldEnds, show a.order comfortChannel = none from ha, pendingFor_seesCab h]
  have hjudged : d = if (!s.cfc.lockout) = true then a.putRegState (.active .resting) else a := by
    rw [judgesCab_of_idle hj hs, State.judgesCab, ← hends]
    unfold Engine.comfortJudge
    rw [hcrg]
  rw [hjudged, ← h.crg]
  cases s.cfc.lockout with
  | true => exact ⟨ha, by rw [← hcrg]; rfl⟩
  | false => exact ⟨ha, rfl⟩

/-- The regulator does nothing while DISABLED or SUSPENDED, or without a CABIN mean (R157). -/
theorem cabIdle_quiet (hq : (s.eng.crg.state = .disabled ∨ s.eng.crg.state = .suspended)
      ∨ (Bank.nth s.sbe.formReadings Zone.cabin.idx).mean = none ∧ ∃ dir, s.eng.crg.state = .active dir) :
    d.order 5 = none ∧ d.crg = s.eng.crg := by
  have hjudged : d = a := by
    rw [judgesCab_of_idle hj hs, State.judgesCab]
    rcases hq with hq | ⟨hm, dir, hdir⟩
    · exact comfortJudge_quiet (by rwa [Engine.comfortQuiet, h.crg]) _ _ _ _
    · unfold Engine.comfortJudge
      rw [h.crg, hdir, hm]
  rw [hjudged]
  exact ⟨ha, h.crg⟩

variable {mean : Int} (hd : s.eng.crg.state = .active .resting)
  (hm : (Bank.nth s.sbe.formReadings Zone.cabin.idx).mean = some mean)
include hd hm

theorem cabIdle_rests (hr : ∀ w n, ¬ s.WantsPath mean w n) : d.order 5 = none ∧ d.crg = s.eng.crg := by
  rw [judgesCab_of_idle hj hs, judgesCab_stays h hd hm rfl hr]
  exact ⟨ha, h.crg⟩

variable {w : Direction} {n : PathNo} (hn : s.WantsPath mean w n)
include hn

theorem cabIdle_starts (hclaims : a.mar.claims = []) (hpass : s.CopyPasses mean n) :
    d.crg = { s.eng.crg with state := .active w }
    ∧ (d.order 5 = some (s.cabOrder mean n) ∨ d.order 5 = some ((s.cabOrder mean n).granted s.tab)) := by
  obtain ⟨horder, hcrg⟩ := takeOrder_lone (e := a.putRegState (.active w)) s.tab (c := 5) (o := s.cabOrder mean n) hclaims
    (by show (3 : Fin 4) ≠ 0; decide) rfl
  rw [judgesCab_of_idle hj hs, judgesCab_starts h hd hm hn rfl ha, comfortStart_passes h hpass]
  refine ⟨?_, horder⟩
  rw [hcrg, ← h.crg]
  rfl

/-- A start that fails its checks leaves the regulator SUSPENDED and a record (R158, R160). -/
theorem cabIdle_fails {g : Ending} (hg : validate s.tab 3 none (s.cabCopy mean n) = some g ∧ g.cause = .protection
      ∨ validate s.tab 3 none (s.cabCopy mean n) = none ∧ s.eng.setup s.tab .regulator (s.cabCopy mean n) = some g) :
    d.crg = { s.eng.crg with state := .suspended } ∧ d.channel 5 = ⟨none, true⟩
    ∧ ∃ k, ⟨.completion ⟨5, 0, 3, g, none, none, 0, 0, ⟨false, false, 0⟩⟩, k⟩ ∈ d.reports := by
  have hcheck : a.checkInternal s.tab (s.cabCopy mean n) = some g := by
    rcases hg with ⟨hvalid, -⟩ | ⟨hvalid, hsetup⟩
    · rw [Engine.checkInternal, hvalid]
    · rw [Engine.checkInternal, hvalid, setup_seesCab h]
      exact hsetup
  have hcause : g.cause = .protection ∨ g.cause = .zoneBlind :=
    hg.imp And.right fun hg => setup_cause (x := s.cabCopy mean n) hn.2 hg.2
  have hforms : Owner.regulator.formsRecord g.cause = true := by rcases hcause with hcause | hcause <;> rw [hcause] <;> rfl
  have htakes : a.regulatorTakes .regulator g = a.putRegState .suspended := by
    unfold Engine.regulatorTakes
    dsimp only
    rw [h.crg, hd]
    rcases hcause with hcause | hcause <;> rw [hcause] <;> rfl
  have hrecord : recordOf 5 (s.cabOrder mean n) g = ⟨5, 0, 3, g, none, none, 0, 0, ⟨false, false, 0⟩⟩ := by
    simp [recordOf, State.cabOrder, newOrder, State.cabCopy, internalCopy, recordCap]
  rw [judgesCab_of_idle hj hs, judgesCab_starts h hd hm hn rfl ha, comfortStart_fails h hcheck, htakes,
    closeOrder_recorded rfl hforms, hrecord]
  refine ⟨?_, Engine.channel_putChannel_self _ _ _, mem_handReport a.reports _⟩
  rw [← h.crg]
  rfl

end

/-! ### What the scan end finds and leaves -/

/-- The engine `a` that the work of a scan end finds, the one that work and judgement leave, and `u` that stands after it. -/
structure State.CabScan (s : State) (u a d : Engine) : Prop where
  sees : a.SeesCab s
  judged : s.CabJudged a d
  left : CabLeftAs u d
  order : a.order 5 = s.eng.order 5

section
variable {s : State} {f : Feedback} {ord : ScanOrder} (hend : s.atFullScanEnd f ord) (hz : ∀ z, s.zoneStands z)
  (hset : s.eng.settledOn 5)
include hend hz hset

theorem cabScan_foundBy (ha : ReadFrom s.eng (s.foundBy f ord)) :
    ∃ d, s.CabScan (s.endScan .full f ord).eng (s.foundBy f ord) d := by
  obtain ⟨d, hjudged, hleft⟩ := endScan_cab hend hz hset ha
  obtain ⟨-, hpending, -⟩ := hset
  exact ⟨d, seesCab_foundBy ha hpending, hjudged, hleft, ha.order 5⟩

theorem cabScan_idle (ho : s.eng.order 5 = none) :
    ∃ a d, s.CabScan (s.endScan .full f ord).eng a d ∧ a.mar.claims = [] := by
  obtain ⟨hread, hclaims, -⟩ := readForWork_unmetered (unmetered_of_noOrders (noOrders_of_settledOn hset ho)) s.tab
    (s.scanInput f ord)
  obtain ⟨d, hscan⟩ := cabScan_foundBy hend hz hset hread
  exact ⟨_, d, hscan, hclaims.trans (List.append_eq_nil_iff.1 (unclaimed_of_settledOn hset ho)).1⟩

variable {o : Order} (ho : s.eng.order 5 = some o)
include ho

/-- Where the one order waits, nothing but its own set is claimed. -/
theorem cabScan_waiting (hp : o.phase = .waiting) :
    ∃ a d, s.CabScan (s.endScan .full f ord).eng a d ∧ ∀ g ∈ a.mar.claims, g.channel = 5 := by
  have hruns := runsAlone_of_settledOn hset ho
  obtain ⟨hread, hclaims, -⟩ := readForWork_unmetered (unmetered_of_runsAlone hruns (.inl hp)) s.tab (s.scanInput f ord)
  obtain ⟨d, hscan⟩ := cabScan_foundBy hend hz hset hread
  obtain ⟨-, -, hclaimed⟩ := hset
  refine ⟨_, d, hscan, fun g hg => ?_⟩
  by_contra hne
  exact hclaimed g (List.mem_append_left _ (hclaims ▸ hg)) (hruns.idle _ hne)

/-- An order that goes on through the scan end by what the state tells, does so by what the work finds. -/
theorem cabScan_kept (hk : s.keepsSetting o ∨ s.keepsRunning o) :
    ∃ a d, s.CabScan (s.endScan .full f ord).eng a d ∧ a.Keeps s.tab o := by
  have hruns := runsAlone_of_settledOn hset ho
  rcases hk with ⟨hp, y, hy, hstands⟩ | ⟨hp, hv, hi, hrem, htime, hcont, hnext, hdep, hfull⟩
  · obtain ⟨d, hscan⟩ := cabScan_foundBy hend hz hset (readFrom_active f ord hruns (.inl hp))
    refine ⟨_, d, hscan, .inl ⟨hp, ?_⟩⟩
    rw [(sameDrive_foundBy (unmetered_of_runsAlone hruns (.inr hp)) f ord).valvesStand]
    refine Bool.eq_false_iff.2 fun hall => hstands ?_
    simpa using List.all_eq_true.1 hall y hy
  · obtain ⟨d, hscan⟩ := cabScan_foundBy hend hz hset (readFrom_active f ord hruns (.inr ⟨hp, hv, hi⟩))
    have hchains : o.copy.chains = false := by simp [Copy.chains, hcont, hnext]
    exact ⟨_, d, hscan, .inr ⟨hp, hrem, htime, hchains, (hscan.sees.depleted _).trans hdep,
      (hscan.sees.full _).trans hfull⟩⟩

end

/-! ### The obligation -/

theorem crg_of_state {r : Regulator} {x : RegState} (h : r.state = x) : { r with state := x } = r := by
  rw [← h]

/-- Settles O32: the requests by the cases of R155, R156 and R165; at the scan end what channel 5's own work and the
judgement of the cab leave, the one or the other first. -/
theorem comfortSwitched : Obligations.ComfortSwitched := by
  refine ⟨fun s f h => ⟨fun g x hg hx => comfortOn_cases h hg hx, comfortOff_cases h, panelLock_cases h⟩,
    fun s fb ord hend hz hset => ?scan⟩
  intro x reading
  obtain ⟨hrun, hfull, -⟩ := id hend
  refine ⟨_, exec_scanEnd hrun hfull fb ord, fun hst ho => ?held, fun hq ho => ?quiet, ?active⟩
  case held =>
    obtain ⟨a, d, ⟨hsees, hj, hl, ha⟩, -⟩ := cabScan_idle hend hz hset ho
    rw [hl.order, hl.crg]
    exact cabIdle_held hsees hj ho (ha.trans ho) hst
  case quiet =>
    obtain ⟨a, d, ⟨hsees, hj, hl, ha⟩, -⟩ := cabScan_idle hend hz hset ho
    rw [hl.order, hl.crg]
    exact cabIdle_quiet hsees hj ho (ha.trans ho) (or_assoc.2 hq)
  case active =>
    intro dir mean hd hm cold hot entry bars wants rests rate copy passes is
    refine ⟨fun hrest ho => ?idle, fun o hrest ho hw hcls => ⟨fun hp => ?waiting, fun hk hdown => ?kept⟩⟩
    case idle =>
      subst hrest
      obtain ⟨a, d, ⟨hsees, hj, hl, ha⟩, hclaims⟩ := cabScan_idle hend hz hset ho
      replace ha := ha.trans ho
      refine ⟨fun hr => ?_, fun w n hn => ⟨fun hpass => ?_, fun g hg => ?_⟩⟩
      · obtain ⟨horder, hcrg⟩ := cabIdle_rests hsees hj ho ha hd hm hr
        exact ⟨(hl.crg.trans hcrg).trans (crg_of_state hd).symm, (hl.order 5).trans horder⟩
      · obtain ⟨hcrg, horder⟩ := cabIdle_starts hsees hj ho ha hd hm hn hclaims hpass
        rw [← hl.order] at horder
        refine ⟨hl.crg.trans hcrg, ?_⟩
        rcases horder with horder | horder
        · exact ⟨_, horder, rfl, rfl, rfl, rfl, rfl, rfl, .inl rfl⟩
        · exact ⟨_, horder, rfl, rfl, rfl, rfl, rfl, rfl, .inr rfl⟩
      · obtain ⟨hcrg, hchannel, hreport⟩ := cabIdle_fails hsees hj ho ha hd hm hn hg
        rw [← hl.channel] at hchannel
        rw [← hl.reports] at hreport
        exact ⟨hl.crg.trans hcrg, congrArg Channel.order hchannel, congrArg Channel.recordQueued hchannel, hreport⟩
    case waiting =>
      obtain ⟨a, d, ⟨hsees, hj, hl, ha⟩, hclaims⟩ := cabScan_waiting hend hz hset ho hp
      replace ha := ha.trans ho
      refine ⟨fun n hn => ?_, fun hr => ?_, fun w n hwd hn hpass => ?_⟩
      · obtain ⟨hcrg, horder⟩ := waiting_renewed hsees hj hd hm ho ha hw hp hn
        exact ⟨(hl.crg.trans hcrg).trans (crg_of_state hd).symm, (hl.order 5).trans horder⟩
      · obtain ⟨hcrg, horder⟩ := waiting_ended hsees hj hd hm ho ha hw hp hrest hclaims hr
        exact ⟨hl.crg.trans hcrg, (hl.order 5).trans horder⟩
      · have hcls0 : o.cls ≠ 0 := by rw [hcls]; decide
        obtain ⟨hcrg, o', horder, ho'⟩ := waiting_redirected hsees hj hd hm ho ha hw hp hrest hclaims hcls0 hwd hn hpass
        exact ⟨hl.crg.trans hcrg, o', (hl.order 5).trans horder, ho'⟩
    case kept =>
      obtain ⟨a, d, ⟨hsees, hj, hl, ha⟩, hkept⟩ := cabScan_kept hend hz hset ho hk
      replace ha := ha.trans ho
      refine ⟨fun n hn => ?_, fun hr => ?_, fun w n hwd hn hpass => ?_⟩
      · obtain ⟨hcrg, o', horder, ho'⟩ := active_renewed hsees hj hd hm ho ha hw hkept hn
        exact ⟨(hl.crg.trans hcrg).trans (crg_of_state hd).symm, o', (hl.order 5).trans horder, ho'⟩
      · obtain ⟨hcrg, o', horder, ho'⟩ := active_ended hsees hj hd hm ho ha hw hkept hrest hdown hr
        exact ⟨hl.crg.trans hcrg, o', (hl.order 5).trans horder, ho'⟩
      · obtain ⟨hcrg, o', r, horder, ho'⟩ := active_redirected hsees hj hd hm ho ha hw hkept hrest hdown hwd hn hpass
        exact ⟨hl.crg.trans hcrg, o', r, (hl.order 5).trans horder, ho'⟩

end Sys2Proof.Machine
end

section
/-! O53, O21: a report handed to the queue, and the oldest one fetched. -/

namespace Sys2Proof.Machine

open Sys2Proof

/-! ### A report handed (O53) -/

/-- A report with no other of its kind about its thing is queued at the back (R168). -/
theorem handReport_of_absent {q : List Report} {b : ReportBody} (h : ∀ r ∈ q, r.key ≠ b.key) :
    handReport q b = q ++ [⟨b, 0⟩] := by
  have hstands : b.key ∉ q.map Report.key := by simpa using h
  rw [handReport, if_neg (mt (standsIn_iff q b.key).1 hstands)]

/-- An update in place changes none of the reports about other things. -/
theorem update_of_absent {q : List Report} {b : ReportBody} (h : ∀ r ∈ q, r.key ≠ b.key) :
    q.map (fun r => if r.key = b.key then ⟨b, bumpCount r.count⟩ else r) = q :=
  (List.map_congr_left fun r hr => if_neg (h r hr)).trans q.map_id

/-- A report of the same kind about the same thing is replaced where it stands, with its count raised (R168). -/
theorem handReport_of_standing {before after : List Report} {r : Report} {b : ReportBody} (hr : r.key = b.key)
    (h : ∀ x ∈ before ++ after, x.key ≠ b.key) :
    handReport (before ++ r :: after) b = before ++ ⟨b, bumpCount r.count⟩ :: after := by
  have hstands : standsIn (before ++ r :: after) b.key = true := by simp [standsIn, hr]
  have hbefore := update_of_absent fun x hx => h x (List.mem_append_left after hx)
  have hafter := update_of_absent fun x hx => h x (List.mem_append_right before hx)
  rw [handReport, if_pos hstands, List.map_append, List.map_cons, hbefore, hafter, if_pos hr]

/-- Settles O53: whether a report of the kind and key stands decides between the back of the queue and its place. -/
theorem reportHanded : Obligations.ReportHanded := by
  intro q b
  refine ⟨handReport_of_absent, fun before r after hq hr h => ?_⟩
  rw [hq]
  exact handReport_of_standing hr h

/-! ### The oldest report fetched (O21) -/

section
variable {s : State} {r : Report} {rest : List Report}

theorem answerFetch_empty (h : s.eng.reports = []) : answerFetch s = s.says .empty := by
  rw [answerFetch, h]

/-- The oldest report leaves the queue and is the answer, with the number of those left (R172). -/
theorem answerFetch_oldest (h : s.eng.reports = r :: rest) : answerFetch s
    = (s.putEngine (({ s.eng with reports := rest }).clearFlagFor r)).gives .ok (.report r rest.length) := by
  rw [answerFetch, h]

/-- The removal of a completion record clears its channel's flag (R172). -/
theorem clearFlagFor_completion (e : Engine) (x : Record) (n : Nat) : e.clearFlagFor ⟨.completion x, n⟩
    = e.putChannel x.channel { e.channel x.channel with recordQueued := false } := rfl

/-- Only the removal of a completion record clears a flag (R172). -/
theorem clearFlagFor_other (e : Engine) (h : ∀ c, r.key ≠ .completion c) : e.clearFlagFor r = e := by
  unfold Engine.clearFlagFor
  split
  · rename_i x hx
    exact absurd (key_eq_completion.2 ⟨x, hx, rfl⟩) (h x.channel)
  all_goals rfl

end

/-- A report is sent as its kind byte, its fields, and the number of reports left (R172). -/
theorem fieldBytes_reportFields (r : Report) (left : Nat) : fieldBytes (reportFields r left)
    = r.body.kindByte :: (fieldBytes r.fields ++ (Field.mk "reports left" (.number 26 left)).bytes) := by
  simp [reportFields]

/-- The fields of a completion record are its record body (R189). -/
theorem fieldBytes_completion (r : Record) (n : Nat) : fieldBytes (Report.mk (.completion r) n).fields = recordBytes r := by
  simp [Report.fields]

/-- Settles O21: the three answers by what stands at the front of the queue, and the first bytes of the reply. -/
theorem fetchReport : Obligations.FetchReport := by
  intro s f h
  have hqueue : s.asTaken.eng.reports = s.eng.reports := s.eng.wakeUp_reports
  refine ⟨fun hq => request_says h rfl (answerFetch_empty (hqueue.trans hq)),
    fun r n rest hq => request_gives h rfl ?completion,
    fun r rest hq hk => request_gives h rfl ?other, fun r left => ?kind, fun r n left => ?record⟩
  case completion =>
    have hchannel : s.asTaken.eng.channel r.channel = s.eng.channel r.channel := Engine.channel_wakeUp _ _
    rw [answerFetch_oldest (hqueue.trans hq), clearFlagFor_completion, ← hchannel]
    rfl
  case other => rw [answerFetch_oldest (hqueue.trans hq), clearFlagFor_other _ hk]
  case kind =>
    rw [take_body _ 1 (by omega)]
    show _ :: (fieldBytes (reportFields r left)).take 1 = _
    rw [fieldBytes_reportFields]
    obtain ⟨body, n⟩ := r
    cases body <;> rfl
  case record =>
    rw [take_body _ 26 (by omega)]
    show _ :: (fieldBytes (reportFields ⟨.completion r, n⟩ left)).take 26 = _
    rw [fieldBytes_reportFields, fieldBytes_completion, List.take_succ_cons, List.take_left' (recordBytes_length r)]
    rfl

end Sys2Proof.Machine
end

section
/-! O58: the queue never comes to hold two reports of one kind about one thing. -/

namespace Sys2Proof.Machine

open Sys2Proof

/-! ### What a change of the queue keeps (R167) -/

/-- No two reports of one kind about one thing stand in the part's queue (R167). -/
def State.reportsOk (s : State) : Prop := reportsDistinct s.eng.reports

section
variable {s t : State} (h : s.reportsOk)
include h

theorem reportsOk_of_eq (he : t.eng.reports = s.eng.reports) : t.reportsOk := by
  rwa [State.reportsOk, he]

/-- Whatever the engine's operations do, the queue only has reports handed to it. -/
theorem reportsOk_of_flow (hf : Flow s.eng t.eng) : t.reportsOk := hf.reports.distinct h

/-- The removal of reports brings none in. -/
theorem reportsOk_of_removed (hs : t.eng.reports.Sublist s.eng.reports) : t.reportsOk := h.sublist (hs.map Report.key)

end

theorem reportsOk_of_empty {s : State} (h : s.eng.reports = []) : s.reportsOk := by
  rw [State.reportsOk, h]
  exact List.nodup_nil

/-! ### The owners of the requests -/

/-- START ORDER and HALT ORDER hand reports; QUERY CHANNEL and FETCH REPORT remove one (R172, R173). -/
theorem reportsOk_orderOwner {s : State} (h : s.reportsOk) :
    (∀ c l k t w, (answerStart c l k t w s).state.reportsOk) ∧ (∀ c, (answerHalt c s).state.reportsOk)
    ∧ (∀ c, (answerQuery c s).state.reportsOk) ∧ (answerFetch s).state.reportsOk := by
  have := flow_judges
  have hk := via_grantScan (R := Flow) s.tab
  refine ⟨fun c l k t w => ?start, fun c => ?halt, fun c => ?query, ?fetch⟩
  case start =>
    unfold answerStart
    split
    · exact h
    · split
      · exact h
      · split
        · exact h
        · exact reportsOk_of_flow h (via_takeOrder hk _ _ _ _).it
  case halt =>
    have hend (c : ChannelNo) (g : Ending) : (s.putEngine (s.eng.imposeEnd s.tab (Engine.grantScan s.tab) c g)).reportsOk :=
      reportsOk_of_flow h (via_imposeEnd hk _ _ _ _).it
    unfold answerHalt
    repeat' split
    all_goals first | exact h | exact hend _ _
  case query =>
    unfold answerQuery
    split
    · exact h
    · split
      · exact reportsOk_of_removed h List.filter_sublist
      · split <;> exact h
  case fetch =>
    cases hq : s.eng.reports with
    | nil =>
      rw [answerFetch_empty hq]
      exact h
    | cons r rest =>
      rw [answerFetch_oldest hq]
      refine reportsOk_of_removed h ?_
      rw [hq]
      unfold Engine.clearFlagFor
      show List.Sublist _ _
      split <;> exact List.sublist_cons_self r rest

/-- Of the owners of the requests on tables WRITE ZONE alone reaches the engine: it judges a pending start afresh (R134). -/
theorem reportsOk_tableOwner {s : State} (h : s.reportsOk) :
    (∀ b, (answerWriteSegments b s).state.reportsOk) ∧ (∀ a b, (answerReadSegments a b s).state.reportsOk)
    ∧ (∀ n w, (answerWritePath n w s).state.reportsOk) ∧ (∀ n, (answerReadPath n s).state.reportsOk)
    ∧ (∀ n w, (answerWriteZone n w s).state.reportsOk) ∧ (∀ n, (answerReadZone n s).state.reportsOk)
    ∧ (∀ es, (answerWriteSensorMap es s).state.reportsOk) ∧ ∀ a x y, (answerChecksum a x y s).state.reportsOk := by
  refine ⟨fun b => ?writeSegments, fun a b => ?readSegments, fun n w => ?writePath, fun n => ?readPath, fun n w => ?writeZone,
    fun n => ?readZone, fun es => ?map, fun a x y => ?checksum⟩
  case writeSegments =>
    unfold answerWriteSegments
    split
    · exact h
    · split
      · exact h
      · exact reportsOk_of_eq h (congrArg Engine.reports (State.putTables_eng _ _))
  case readSegments =>
    unfold answerReadSegments
    split <;> exact h
  case writePath =>
    unfold answerWritePath
    repeat' split
    all_goals exact h
  case readPath =>
    unfold answerReadPath
    split <;> exact h
  case writeZone =>
    have := flow_judges
    have hwrite (z : Zone) (x : ZoneChange) : (s.takeZoneWrite z x).reportsOk := by
      unfold State.takeZoneWrite
      dsimp only
      split
      · exact reportsOk_of_flow h (via_rejudgePending (via_grantScan _) _ _ _).it
      · exact h
    unfold answerWriteZone
    repeat' split
    all_goals first | exact h | exact hwrite _ _
  case readZone =>
    unfold answerReadZone
    split <;> exact h
  case map =>
    unfold answerWriteSensorMap
    repeat' split
    all_goals exact h
  case checksum =>
    unfold answerChecksum
    split <;> exact h

/-- Of the owners of the requests on movers and comfort EXCHANGE ROLE and COMFORT OFF may hand reports. -/
theorem reportsOk_moverOwner {s : State} (h : s.reportsOk) :
    (∀ r b, (answerExchange r b s).state.reportsOk) ∧ (∀ i, (answerTest i s).state.reportsOk)
    ∧ (∀ x, (answerTarget x s).state.reportsOk) ∧ (∀ g, (answerComfortOn g s).state.reportsOk)
    ∧ (answerComfortOff s).state.reportsOk ∧ ∀ b, (answerPanelLock b s).state.reportsOk := by
  have := flow_judges
  have := flow_drives
  refine ⟨fun r b => ?exchange, fun i => ?test, fun x => ?target, fun g => ?comfortOn, ?comfortOff, fun b => ?panelLock⟩
  case exchange =>
    unfold answerExchange
    split
    · exact h
    · exact reportsOk_of_flow h (via_exchangeAtOnce _ _ _ _).it
    · exact reportsOk_of_flow h (via_exchangeHeld _ _ _ _).it
  case test =>
    unfold answerTest answerOutputTest answerValveTest
    repeat' split
    all_goals exact h
  case target =>
    unfold answerTarget
    dsimp only
    split <;> exact h
  case comfortOn =>
    unfold answerComfortOn
    repeat' split
    all_goals exact h
  case comfortOff => exact reportsOk_of_flow h (via_comfortDisable (via_grantScan s.tab) _ _).it
  case panelLock =>
    unfold answerPanelLock
    split <;> exact h

/-- The owners of configuration control leave the queue alone, PARK too (R175). -/
theorem reportsOk_controlOwner {s : State} (h : s.reportsOk) :
    (∀ t b, (answerTuning t b s).state.reportsOk) ∧ (∀ m, (answerMode m s).state.reportsOk)
    ∧ (∀ l, (answerSetLock l s).state.reportsOk) ∧ (answerReleasePathLock s).state.reportsOk
    ∧ (∀ w, (answerWindow w s).state.reportsOk) ∧ (answerSave s).state.reportsOk ∧ (answerPark s).state.reportsOk := by
  refine ⟨fun t b => ?tuning, fun m => ?mode, fun l => ?setLock, ?pathLock, fun w => ?window, ?save, ?park⟩
  case tuning =>
    unfold answerTuning
    repeat' split
    all_goals exact h
  case mode =>
    unfold answerMode
    repeat' split
    all_goals exact h
  case setLock =>
    unfold answerSetLock
    repeat' split
    all_goals exact h
  case pathLock =>
    unfold answerReleasePathLock
    repeat' split
    all_goals exact h
  case window =>
    unfold answerWindow
    repeat' split
    all_goals exact h
  case save =>
    unfold answerSave
    split <;> exact h
  case park =>
    unfold answerPark
    split <;> exact h

/-- Every request's owner keeps the keys in the queue distinct. -/
theorem reportsOk_owner {c : Instr} {kind : Byte} {f : Frame} (hq : requestOf c = some (kind, f)) :
    ∃ owner : State → Answer, (∀ s, exec c s = s.request kind f owner)
      ∧ ∀ s, s.reportsOk → (owner s).state.reportsOk := by
  cases c <;> simp only [requestOf, Option.some.injEq, Prod.mk.injEq, reduceCtorEq] at hq
  all_goals
    obtain ⟨rfl, rfl⟩ := hq
    refine ⟨_, fun _ => rfl, fun s h => ?_⟩
    obtain ⟨hstart, hhalt, hquery, hfetch⟩ := reportsOk_orderOwner h
    obtain ⟨hwriteSegments, hreadSegments, hwritePath, hreadPath, hwriteZone, hreadZone, hmap, hchecksum⟩ :=
      reportsOk_tableOwner h
    obtain ⟨hexchange, htest, htarget, hcomfortOn, hcomfortOff, hpanelLock⟩ := reportsOk_moverOwner h
    obtain ⟨htuning, hmode, hsetLock, hpathLock, hwindow, hsave, hpark⟩ := reportsOk_controlOwner h
  case startOrder => exact hstart ..
  case haltOrder => exact hhalt _
  case queryChannel => exact hquery _
  case fetchReport => exact hfetch
  case writeSegments => exact hwriteSegments _
  case readSegments => exact hreadSegments ..
  case writePath => exact hwritePath ..
  case readPath => exact hreadPath _
  case writeZone => exact hwriteZone ..
  case readZone => exact hreadZone _
  case writeSensorMap => exact hmap _
  case checksum => exact hchecksum ..
  case exchangeRole => exact hexchange ..
  case testOutput => exact htest _
  case setCabinTarget => exact htarget _
  case comfortOn => exact hcomfortOn _
  case comfortOff => exact hcomfortOff
  case panelLock => exact hpanelLock _
  case setTuning => exact htuning ..
  case setMode => exact hmode _
  case setLock => exact hsetLock _
  case releasePathLock => exact hpathLock
  case setPathWindow => exact hwindow _
  case saveConfiguration => exact hsave
  case park => exact hpark
  -- What is left answers from the state, or changes the lockout alone.
  all_goals exact h

/-! ### Frames, panel and restarts -/

theorem reportsOk_errorReply {s : State} (h : s.reportsOk) (k q : Byte) (c : ReplyCode) : (s.errorReply k q c).reportsOk := by
  unfold State.errorReply
  split <;> exact h

/-- A completed frame may wake the part, which keeps the queue. -/
theorem reportsOk_frameComplete {s : State} (h : s.reportsOk) : s.frameComplete.reportsOk :=
  reportsOk_of_eq h s.eng.wakeUp_reports

/-- Whatever becomes of a request, the queue is kept as its owner keeps it. -/
theorem reportsOk_request {s t : State} {c : Instr} {kind : Byte} {f : Frame} (hq : requestOf c = some (kind, f))
    (h : s.reportsOk) (ht : exec c s = .next t) : t.reportsOk := by
  obtain ⟨owner, he, ho⟩ := reportsOk_owner hq
  refine request_keeps (P := State.reportsOk) (fun _ _ h => h) (fun _ h => reportsOk_frameComplete h)
    (fun _ k q c h => reportsOk_errorReply h k q c) (fun s h _ _ => ?_) h (he s ▸ ht)
  exact judgeRequest_keeps (P := State.reportsOk) (s := s.takeSlot) h (ho _ h) kind f.lengthFits

/-- The frames that reach no owner: of an unknown kind, or with no slot free. -/
theorem reportsOk_unheardRow {s t : State} (h : s.reportsOk) :
    (∀ kind f, execUnknownRequest kind f s = .next t → t.reportsOk)
    ∧ (∀ kind f, execBusy kind f s = .next t → t.reportsOk) := by
  have arrives {f : State → State} (kind seq : Byte) (body : List Byte) (hf : ∀ s, s.reportsOk → (f s).reportsOk)
      {s : State} (h : s.reportsOk) : (s.frameArrives kind seq body f).reportsOk :=
    frameArrives_keeps (P := State.reportsOk) (fun _ _ h => h) (fun _ h => reportsOk_errorReply h _ _ _)
      (fun _ h => reportsOk_frameComplete h) hf h
  refine ⟨fun kind f ht => ?unknown, fun kind f ht => ?busy⟩
  case unknown =>
    unfold execUnknownRequest at ht
    split at ht
    · cases ht; exact h
    · exact running_keeps State.reportsOk ht h (arrives _ _ _ fun _ h =>
        frameTaken_keeps (P := State.reportsOk) (judge := (State.says · .unknownRequest)) (fun _ h => reportsOk_frameComplete h)
          (fun _ k q c h => reportsOk_errorReply h k q c) (fun _ h _ _ => h) h)
  case busy =>
    unfold execBusy at ht
    split at ht
    · cases ht; exact h
    · exact running_keeps State.reportsOk ht h (arrives _ _ _ fun _ h =>
        reportsOk_errorReply (reportsOk_frameComplete h) _ _ _)

theorem reportsOk_receiveOther {s : State} (h : s.reportsOk) (bytes : List RxByte) :
    (s.receive otherFrame bytes).reportsOk :=
  receive_keeps (P := State.reportsOk) (on := otherFrame) (fun _ _ h => h) (fun _ h => reportsOk_errorReply h _ _ _)
    (fun _ _ _ _ h => reportsOk_frameComplete h) h bytes

/-- A line of the panel may set the cabin target, and reaches no more of the engine. -/
theorem reportsOk_panelChars {s : State} (h : s.reportsOk) (bs : List Byte) : (s.panelChars bs).reportsOk := by
  have hbyte (s : State) (h : s.reportsOk) (b : Byte) : (s.panelChar b).reportsOk := by
    unfold State.panelChar State.rejectLine State.takeLine
    repeat' split
    all_goals exact h
  have hfold : (bs.foldl State.panelChar s).reportsOk :=
    List.foldlRecOn (motive := State.reportsOk) _ _ h fun x hx b _ => hbyte x hx b
  unfold State.panelChars
  split
  · exact h
  all_goals exact hfold

/-- A RESET's effects follow its reply, and empty the queue (R175, R198). -/
theorem reportsOk_replyLeft {s : State} (h : s.reportsOk) : s.replyLeft.reportsOk := by
  unfold State.replyLeft
  split
  · exact h
  · dsimp only
    split
    · exact reportsOk_of_empty rfl
    · exact h

/-- The part as a restart or a stop leaves it has an empty queue (R175). -/
theorem reportsOk_supplyRow {s t : State} (h : s.reportsOk) :
    (∀ straps, execResetPinRelease straps s = .next t → t.reportsOk)
    ∧ (execResetPinAssert s = .next t → t.reportsOk) ∧ (execPowerLoss s = .next t → t.reportsOk) := by
  refine ⟨fun straps ht => ?release, fun ht => ?assert, fun ht => ?loss⟩
  case release =>
    unfold execResetPinRelease at ht
    split at ht <;> cases ht
    · exact reportsOk_of_empty rfl
    · exact reportsOk_of_empty rfl
    · exact h
  case assert =>
    unfold execResetPinAssert at ht
    split at ht <;> cases ht
    · exact reportsOk_of_empty rfl
    · exact h
    · exact h
  case loss =>
    unfold execPowerLoss at ht
    split at ht <;> cases ht
    · exact reportsOk_of_empty rfl
    · exact reportsOk_of_empty rfl
    · exact h

/-! ### The plant and the clock -/

section
variable {R : Engine → Engine → Prop}

theorem via_onEngine [Base R] {s t : State} {f : Engine → Engine} (hf : Vias R f) (ht : s.onEngine f = .next t) :
    Via R s.eng t.eng :=
  running_keeps (fun u => Via R s.eng u.eng) ht (.refl s.eng) fun _ => hf s.eng

theorem via_onReady [Base R] {s t : State} {f : Engine → Engine} (hf : Vias R f) (ht : s.onReady f = .next t) :
    Via R s.eng t.eng := via_onEngine (via_whenReady f hf) ht

/-- What the engine's operations admit, every event of the plant admits. -/
theorem via_plantEvent [Drives R] {s t : State} {c : Instr} (hc : plantEvent c = true) (ht : exec c s = .next t) :
    Via R s.eng t.eng := by
  have hk := via_grantScan (R := R) s.tab
  cases c
  case meterHoldExpiry m => exact via_onEngine (fun _ => via_holdExpires hk _ _ _) ht
  case reservePendingStart c => exact via_onEngine (fun _ => via_servePending hk _ _ _) ht
  case segmentTimeLimit c => exact via_onEngine (fun _ => via_timeLimitReached hk _ _ _) ht
  case leadEnd c => exact via_onEngine (fun _ => via_leadEnds _ _ _) ht
  case waitLimitReached c => exact via_onEngine (fun _ => via_waitLimitReached hk _ _ _) ht
  case runDownEnd c => exact via_onEngine (fun _ => via_runDownReached hk _ _ _) ht
  case equalizeEnd => exact via_onEngine (via_equalizeIfOver _) ht
  case openLoad o => exact via_onReady (fun _ => via_openLoadReached _ _ _) ht
  case stall o => exact via_onReady (fun _ => via_stallReached _ _ _) ht
  case outputTestEnd o => exact via_onReady (fun _ => via_testEnds _ _ _) ht
  case handOverEnd => exact via_onReady (fun _ => via_handOverEnds _) ht
  case valveAtPosition v => exact via_onReady (fun _ => via_valveArrives hk _ _ _) ht
  case valveTravelTimeout v => exact via_onReady (fun _ => via_valveTimesOut hk _ _ _) ht
  case valveFeedbackLost v => exact via_onReady (fun _ => via_valveLosesFeedback hk _ _ _) ht
  case valveDrift v => exact via_onReady (fun _ => via_valveDrifts _ _ _) ht
  case valveTestFirstLeg v => exact via_onReady (fun _ => via_valveTestTurns _ _ _) ht
  case valveTestPass v => exact via_onReady (fun _ => via_valveTestPasses _ _ _) ht
  all_goals cases hc

end

theorem reportsOk_endScan {s : State} (h : s.reportsOk) (k : ScanKind) (f : Feedback) (ord : ScanOrder) :
    (s.endScan k f ord).reportsOk := by
  by_cases hk : k = .parked
  · have hflow := flow_superviseZones s.eng s.tab s.sbe.formReadings
    rw [hk, State.reportsOk, endScan_parked]
    exact hflow.reports.distinct h
  · have hflow := flow_fullScanEnd s.eng s.tab (s.scanInput f ord)
    obtain ⟨-, hreports⟩ := endScan_zones s hk f ord
    rw [State.reportsOk, hreports]
    exact hflow.reports.distinct h

theorem flow_parkedClock (e : Engine) (t : Tables) (n : Nat) : Flow e (e.parkedClock t n) :=
  have := flow_judges
  (via_parkedClock e t n).it

/-- The rows of a scan (R4 to R12). -/
theorem reportsOk_scanRow {s t : State} (h : s.reportsOk) :
    (execScanStart s = .next t → t.reportsOk) ∧ (execParkedScanStart s = .next t → t.reportsOk)
    ∧ (execWakingScanStart s = .next t → t.reportsOk) ∧ (∀ i r, execSensorRead i r s = .next t → t.reportsOk)
    ∧ (∀ i, execInputLost i s = .next t → t.reportsOk) ∧ (∀ f ord, execScanEnd f ord s = .next t → t.reportsOk) := by
  refine ⟨?start, ?parked, ?waking, fun i r => ?read, fun i => ?lost, fun f ord => ?ends⟩ <;>
    refine fun ht => running_keeps State.reportsOk ht h fun h => ?_
  case start => split <;> exact h
  case parked =>
    split
    · exact reportsOk_of_flow h (flow_parkedClock ..)
    · exact h
  case waking => split <;> exact h
  case read =>
    split
    · exact h
    · split <;> exact h
  case lost =>
    split
    · exact h
    · split <;> exact h
  case ends =>
    split
    · exact reportsOk_endScan h _ f ord
    all_goals exact h

/-- The pending reserve starts of output enable hand their reports (R143, R197). -/
theorem reportsOk_enable {s : State} (h : s.reportsOk) (c : Control) :
    ({ s with eng := s.eng.enable s.tab, cfc := c } : State).reportsOk := by
  have := flow_judges
  have hserve : Via Flow { s.eng with part := .ready, ost := s.eng.ost.countsCleared } (s.eng.enable s.tab) :=
    .foldl _ (fun e c => via_servePending (via_grantScan s.tab) e s.tab c) _ _
  exact hserve.it.reports.distinct h

/-! ### Every step -/

theorem reportsOk_whileSaving {s : State} (h : s.reportsOk) {f : State → State} (hf : (f s).reportsOk) :
    (s.whileSaving f).reportsOk := by
  unfold State.whileSaving
  split <;> assumption

theorem reportsOk_betweenScans {s : State} (h : s.reportsOk) {f : State → State} (hf : (f s).reportsOk) :
    (s.betweenScans f).reportsOk := by
  unfold State.betweenScans
  split <;> assumption

/-- Every command keeps the queue free of two reports of one kind about one thing. -/
theorem reportsOk_exec {s t : State} {c : Instr} (h : s.reportsOk) (ht : exec c s = .next t) : t.reportsOk := by
  rcases hq : requestOf c with _ | ⟨kind, f⟩
  case some => exact reportsOk_request hq h ht
  by_cases hp : plantEvent c = true
  · have := flow_drives
    exact reportsOk_of_flow h (via_plantEvent hp ht).it
  obtain ⟨hunknown, hbusy⟩ := reportsOk_unheardRow (t := t) h
  obtain ⟨hstart, hparked, hwaking, hread, hlost, hend⟩ := reportsOk_scanRow (t := t) h
  obtain ⟨hrelease, hassert, hloss⟩ := reportsOk_supplyRow (t := t) h
  have running {f : State → State} (ht : Host.Outcome.next (φ := Fault) (ρ := Refusal) (s.whileRunning f) = .next t)
      (hf : (f s).reportsOk) : t.reportsOk := running_keeps State.reportsOk ht h fun _ => hf
  cases c
  case unknownRequest kind f => exact hunknown kind f ht
  case busy kind f => exact hbusy kind f ht
  case frameError bytes after => exact running ht (reportsOk_receiveOther (reportsOk_receiveOther h _) _)
  case frameTimeout bytes =>
    have hhunting : ((s.receive otherFrame bytes.before).putRx .hunting).reportsOk := reportsOk_receiveOther h _
    exact running ht (reportsOk_receiveOther hhunting _)
  case replySent => exact running ht (reportsOk_replyLeft h)
  case powerOnReset straps => cases ht; exact reportsOk_of_empty rfl
  case resetPinRelease straps => exact hrelease straps ht
  case resetPinAssert => exact hassert ht
  case powerLoss => exact hloss ht
  case imageLoadComplete r =>
    refine running ht ?_
    split
    · unfold State.finishStart
      repeat' split
      all_goals exact h
    all_goals exact h
  case scanStart => exact hstart ht
  case parkedScanStart => exact hparked ht
  case wakingScanStart => exact hwaking ht
  case sensorRead i r => exact hread i r ht
  case inputLost i => exact hlost i ht
  case scanEnd f ord => exact hend f ord ht
  case parkTimerExpiry =>
    refine running ht ?_
    unfold State.parkIfDue
    split <;> exact h
  case outputEnableEnd =>
    refine running ht ?_
    split
    · exact reportsOk_enable h _
    · exact h
  case savePiece => exact running ht (reportsOk_whileSaving h (reportsOk_betweenScans h h))
  case saveComplete => exact running ht (reportsOk_whileSaving h (reportsOk_betweenScans h h))
  case saveFailed => exact running ht (reportsOk_whileSaving h h)
  case panelTargetLine rest => exact running ht (reportsOk_panelChars h _)
  case panelQueryLine => exact running ht (reportsOk_panelChars h _)
  case panelBadLine line => exact running ht (reportsOk_panelChars h _)
  case panelLineTimeout before after =>
    have hempty : (s.panelChars before).emptyLine.reportsOk := reportsOk_panelChars h before
    exact running ht (reportsOk_panelChars hempty after)
  case panelReplySent => exact running ht h
  -- What is left is an event of the plant or a request.
  all_goals first | exact absurd rfl hp | exact absurd hq (Option.some_ne_none _)

/-- Of 100 milliseconds without a command only an equalize may end (R105). -/
theorem reportsOk_parkedTick {s : State} (h : s.reportsOk) : s.parkedTick.reportsOk := by
  unfold State.parkedTick
  split
  · exact reportsOk_of_flow h (flow_parkedClock ..)
  all_goals exact h

/-- Settles O58: a step is a command or an idle step, and both keep the keys distinct; there are 27 keys. -/
theorem reportsKept : Obligations.ReportsKept := by
  intro s t h ht
  have hkept : t.reportsOk := by
    unfold step at ht
    split at ht
    · exact running_keeps State.reportsOk ht h reportsOk_parkedTick
    · rename_i c rest _
      exact reportsOk_exec (s := s.withPending rest) h ht
  exact ⟨hkept, length_le_of_distinct hkept⟩

end Sys2Proof.Machine
end

section
/-! O12, O8, O14, O15, O9: a reply that has left, the requests that the port turns away, and those that it takes and answers. -/

namespace Sys2Proof.Machine

open Sys2Proof

/-! ### A reply that has left (O12) -/

/-- Settles O12: a reply that is no RESET's frees its slot and lets the waiting one follow. -/
theorem replyLeaves : Obligations.ReplyLeaves := by
  intro s r hrun hsending hresets
  show Host.Outcome.next (s.whileRunning State.replyLeft) = _
  simp [State.whileRunning, hrun, State.replyLeft, hsending, hresets]

/-! ### The kinds of the catalogue and of their replies (R179, R183) -/

theorem mem_catalogue_of_request {c : Instr} {kind : Byte} {f : Frame} (h : requestOf c = some (kind, f)) :
    kind ∈ catalogue := by
  cases c <;> simp only [requestOf, Option.some.injEq, Prod.mk.injEq, reduceCtorEq] at h
  all_goals
    obtain ⟨rfl, -⟩ := h
    decide

theorem replyKind_of_mem_catalogue : ∀ kind ∈ catalogue, replyKind kind = kind + 0x80 := by decide

/-- The reply to a request has the request's kind plus 80 (R179). -/
theorem replyKind_of_request {c : Instr} {kind : Byte} {f : Frame} (h : requestOf c = some (kind, f)) :
    replyKind kind = kind + 0x80 :=
  replyKind_of_mem_catalogue kind (mem_catalogue_of_request h)

/-- IDENTIFY and READ STATUS alone are answered while STARTING (R181). -/
theorem answeredStarting_eq_false {kind : Byte} : answeredStarting kind = false ↔ kind ≠ 0x01 ∧ kind ≠ 0x02 := by
  simp [answeredStarting]

theorem answeredStarting_eq_true {kind : Byte} : answeredStarting kind = true ↔ kind = 0x01 ∨ kind = 0x02 := by
  simp [answeredStarting]

/-! ### How a taken request is judged (R181) -/

section
variable {s : State} {kind : Byte} {f : Frame} {owner : State → Answer}

theorem judgeRequest_starting (hpart : s.eng.part = .starting) (hkind : answeredStarting kind = false) (fits : Bool) :
    s.judgeRequest kind fits owner = s.says .notReady := if_pos ⟨hpart, hkind⟩

theorem judgeRequest_heard (hheard : s.eng.part ≠ .starting ∨ answeredStarting kind = true) (fits : Bool) :
    s.judgeRequest kind fits owner = if fits then owner s else s.says .badArgument := by
  refine if_neg fun ⟨hpart, hkind⟩ => ?_
  rcases hheard with hnot | hyes
  · exact hnot hpart
  · exact Bool.false_ne_true (hkind.symm.trans hyes)

/-- IDENTIFY and READ STATUS go to their owners in every part state. -/
theorem request_answeredStarting (h : s.free) (hb : fitsFrame f.body) (hf : f.lengthFits = true)
    (hkind : answeredStarting kind = true) : s.request kind f owner = .next ((owner s.asTaken).sent kind f.seq) := by
  rw [request_free h kind hb, judgeRequest_heard (.inr hkind), if_pos hf]

/-- A request whose first bytes the port holds already is the same request. -/
theorem request_resumed (h : s.listening) (hb : fitsFrame f.body) {n : Nat} (hn : n < f.body.length + 5) :
    (s.putRx (.receiving ((requestFrame kind f.seq f.body).tail.take n) false)).request kind f owner
      = s.request kind f owner := by
  rw [request_listening h kind hb]
  unfold State.request State.whileRunning
  rw [State.putRx_run, h.1]
  dsimp only
  rw [show (requestFrame kind f.seq f.body).tail = frameTail kind f.seq f.body from rfl,
    frameArrives_resumed s kind f.seq hb n hn, State.putRx_same h.2]

end

/-- Settles O8: a taken request is judged by the part state, then by its length, before its owner has a part in it. -/
theorem turnedAwayByThePort : Obligations.TurnedAwayByThePort := by
  intro s c kind f hc hfree hb
  obtain ⟨owner, hexec, -⟩ := owner_of_request hc
  have hk := replyKind_of_request hc
  rw [hexec, request_free hfree kind hb]
  refine ⟨fun hpart h1 h2 => ?starting, fun hheard hlength => ?length⟩
  case starting =>
    rw [judgeRequest_starting ((State.asTaken_starting s).2 hpart) (answeredStarting_eq_false.2 ⟨h1, h2⟩),
      says_sent _ _ kind _ f hk]
  case length =>
    have hheard' : s.asTaken.eng.part ≠ .starting ∨ answeredStarting kind = true :=
      hheard.imp (mt (State.asTaken_starting s).1) answeredStarting_eq_true.2
    rw [judgeRequest_heard hheard', hlength, if_neg Bool.false_ne_true, says_sent _ _ kind _ f hk]

/-! ### IDENTIFY (O14) -/

theorem ascii_family : ascii "ULENGRA" = [0x55, 0x4C, 0x45, 0x4E, 0x47, 0x52, 0x41] := by decide

theorem ascii_part : ascii "UH-260" = [0x55, 0x48, 0x2D, 0x32, 0x36, 0x30] := by decide

/-- The reply to IDENTIFY begins with the device code, the two texts behind their length bytes and the revision letter (R184). -/
theorem fieldBytes_identity (i : Identity) : ∃ rest, fieldBytes i.fields
    = be16 i.device.toNat ++ textBytes i.family ++ textBytes i.part ++ i.revision :: rest := by
  simp [Identity.fields]

/-- Settles O14: IDENTIFY's owner gives the identity, and the first fields of its reply have fixed bytes. -/
theorem identifyAnswered : Obligations.IdentifyAnswered := by
  intro s f hfree hb hf i
  have hidentity : answerIdentify s.asTaken = s.asTaken.gives .ok (.identity i) := by
    simp only [answerIdentify, identityOf, ascii_family, ascii_part, State.asTaken_tab, i]
  refine ⟨?answered, ?bytes⟩
  case answered =>
    show s.request 0x01 f answerIdentify = _
    rw [request_answeredStarting hfree hb hf (by decide), hidentity, gives_sent _ _ _ 0x01 0x81 f (by decide)]
  case bytes =>
    obtain ⟨rest, hrest⟩ := fieldBytes_identity i
    rw [take_body _ 18 (by omega), show ReplyBody.fields (.identity i) = i.fields from rfl, hrest]
    simp [be16, textBytes, ReplyCode.value, i]

/-! ### READ STATUS (O15) -/

/-- The attention summary: a zone not NORMAL, an output present and not IN-SERVICE, or a valve FAULTED (R185). -/
theorem attention_iff (e : Engine) (straps : Straps) :
    e.attention straps = true ↔ (∃ z, (e.zone z).state ≠ .normal)
      ∨ (∃ o, (o.val < 8 ∨ straps.spare = true) ∧ (e.output o).state ≠ .inService)
      ∨ ∃ v, (e.valve v).state = .faulted := by
  simp [Engine.attention, outputPresent, List.any_eq_true, mem_allZones, mem_allOutputs, mem_allValves, or_assoc,
    or_comm (a := straps.spare = true)]

@[simp] theorem attention_wakeUp (e : Engine) (straps : Straps) : e.wakeUp.attention straps = e.attention straps := by
  simp [Engine.attention]

/-- Settles O15: READ STATUS's owner reads the state in which the request is taken, a PARKED part already woken. -/
theorem statusAnswered : Obligations.StatusAnswered := by
  intro s f hfree hb hf
  refine ⟨s.asTaken.statusNow, ?answered, ?part, rfl, rfl, rfl, rfl, ?queue, ?comfort, ?zones, ?channels, ?attention⟩
  case answered =>
    show s.request 0x02 f answerStatus = _
    rw [request_answeredStarting hfree hb hf (by decide), answerStatus, gives_sent _ _ _ 0x02 0x82 f (by decide)]
  case part => exact Engine.wakeUp_part s.eng
  case queue => simp [State.statusNow]
  case comfort => simp [State.statusNow]
  case zones => simp [State.statusNow]
  case channels => simp [State.statusNow, Channel.status, Engine.order]
  case attention => simp only [State.statusNow, State.asTaken_eng, State.asTaken_tab, attention_wakeUp, attention_iff]

/-! ### The one reply of a taken request (O9) -/

/-- A reply given to the transmitter is sent at once, or waits behind the one being sent (R180). -/
theorem transmit_eq (l : LinkPort) (r : TxReply) :
    l.transmit r = if l.sending = none then { l with sending := some r } else { l with waiting := some r } := by
  unfold LinkPort.transmit
  cases l.sending <;> rfl

/-- The reply that carries an answer (R179). -/
def Answer.reply (a : Answer) (kind seq : Byte) : TxReply := ⟨replyKind kind, seq, a.code, a.body, true, a.resets⟩

theorem sent_link (a : Answer) (kind seq : Byte) :
    (a.sent kind seq).link = a.state.link.transmit (a.reply kind seq) := rfl

/-- What judges a taken request leaves alone what its owner leaves alone. -/
theorem owned_judgeRequest {owner : State → Answer} (ho : ∀ s, Owned s (owner s).state) (s : State) (kind : Byte) (fits : Bool) :
    Owned s (s.judgeRequest kind fits owner).state :=
  judgeRequest_keeps (P := Owned s) (.refl s) (ho s) kind fits

/-- Settles O9: whatever the owner answers, it leaves the port alone, which then transmits that answer as the one reply. -/
theorem everyRequestAnswered : Obligations.EveryRequestAnswered := by
  intro s c kind f hc hfree hb
  obtain ⟨owner, hexec, howned⟩ := owner_of_request hc
  refine ⟨?answered, fun n hn => ?resumed⟩
  case answered =>
    rw [hexec, request_free hfree kind hb]
    obtain ⟨hlistening, hslot, hwaiting⟩ := hfree
    have hlink := (owned_judgeRequest howned s.asTaken kind f.lengthFits).link
    generalize s.asTaken.judgeRequest kind f.lengthFits owner = a at hlink ⊢
    refine ⟨a.sent kind f.seq, a.reply kind f.seq, rfl, replyKind_of_request hc, rfl, rfl, ?_, body_bound _⟩
    rw [sent_link, hlink, transmit_eq, State.asTaken_link]
    simp only [hwaiting]
  case resumed => rw [hexec, hexec, request_resumed hfree.1 hb hn]

end Sys2Proof.Machine
end

section
/-! O10, O7, O11: what no request touches, requests at a TAKEN slot or behind a waiting reply, and frames of no request. -/

namespace Sys2Proof.Machine

open Sys2Proof

/-! ### What no request touches (O10) -/

theorem Owned.trans {a b c : State} (h : Owned a b) (k : Owned b c) : Owned a c where
  run := k.run.trans h.run
  link := k.link.trans h.link
  stored := k.stored.trans h.stored
  pending := k.pending.trans h.pending
  straps := k.straps.trans h.straps
  inputs := k.inputs.trans h.inputs
  applied := k.applied.trans h.applied
  readings := k.readings.trans h.readings
  imageStatus := k.imageStatus.trans h.imageStatus
  imageTuning := k.imageTuning.trans h.imageTuning
  panel := by rw [k.panel, h.panel]

/-- What no request's owner touches, but for the port, which every frame changes. -/
def OwnedButLink (a b : State) : Prop := Owned a (b.putLink a.link)

namespace OwnedButLink

variable {a b : State}

theorem refl (a : State) : OwnedButLink a a := Owned.refl a

theorem putLink (h : OwnedButLink a b) (l : LinkPort) : OwnedButLink a (b.putLink l) := h

theorem putRx (h : OwnedButLink a b) (rx : RxState) : OwnedButLink a (b.putRx rx) := h

theorem frameComplete (h : OwnedButLink a b) : OwnedButLink a b.frameComplete := h.trans (.eng _ _)

theorem takeSlot (h : OwnedButLink a b) : OwnedButLink a b.takeSlot := h.trans (.control _ _ rfl rfl)

theorem errorReply (h : OwnedButLink a b) (kind seq : Byte) (code : ReplyCode) :
    OwnedButLink a (b.errorReply kind seq code) := by
  unfold State.errorReply
  split
  · exact h
  · exact h.putLink _

/-- What an owner leaves alone stays as it was before the request, too. -/
theorem owned {c : State} (h : OwnedButLink a b) (k : Owned b c) : OwnedButLink a c :=
  h.trans { k with link := rfl }

end OwnedButLink

/-- Whatever bytes come, the receiver changes the port alone, and a good frame wakes a PARKED part. -/
theorem ownedButLink_receiveOther (s : State) (bytes : List RxByte) : OwnedButLink s (s.receive otherFrame bytes) :=
  receive_keeps (P := OwnedButLink s) (fun _ rx h => h.putRx rx) (fun _ h => h.errorReply ..)
    (fun _ _ _ _ h => h.frameComplete) (.refl s) bytes

/-- Settles O10: port, waking and slot touch none of it, and neither does the owner that answers a taken request. -/
theorem requestsLeaveAlone : Obligations.RequestsLeaveAlone := by
  intro s t c kind f hc ht
  obtain ⟨owner, hexec, howned⟩ := owner_of_request hc
  rw [hexec] at ht
  have hkept : OwnedButLink s t :=
    request_keeps (P := OwnedButLink s) (fun _ rx h => h.putRx rx) (fun _ h => h.frameComplete)
      (fun _ _ _ _ h => h.errorReply ..)
      (fun _ h _ _ => (h.takeSlot.owned (owned_judgeRequest howned _ kind f.lengthFits)).putLink _) (.refl s) ht
  exact ⟨hkept.run, hkept.pending, hkept.stored, hkept.straps, hkept.inputs, hkept.applied, hkept.readings,
    hkept.imageStatus, hkept.imageTuning, hkept.panel⟩

/-! ### BUSY and discarded frames (O7) -/

theorem errorReply_eq (s : State) (kind seq : Byte) (code : ReplyCode) :
    s.errorReply kind seq code
      = if s.link.waiting = none then s.putLink (s.link.transmit ⟨kind, seq, code, .none, false, false⟩) else s := by
  unfold State.errorReply
  cases s.link.waiting <;> rfl

/-- A frame that the row BUSY brings is answered BUSY where the slot is TAKEN and no reply waits (R180). -/
theorem exec_busy {s : State} (h : s.listening) (hslot : s.link.slot = .taken) (hwaiting : s.link.waiting = none)
    (kind : Byte) {f : PlainFrame} (hb : fitsFrame f.body) :
    exec (.busy kind f) s = .next (s.frameComplete.putLink
      (s.frameComplete.link.transmit ⟨replyKind kind, f.seq, .busy, .none, false, false⟩)) := by
  have hnone : s.frameComplete.link.waiting = none := hwaiting
  show execBusy kind f s = _
  unfold execBusy State.whileRunning
  rw [hslot, h.1]
  dsimp only
  rw [frameArrives_hunting h.2 _ _ hb, errorReply_eq, if_pos hnone]

/-- Settles O7: a TAKEN slot answers BUSY and a waiting reply discards, whatever the owner of the request is. -/
theorem busyAndDiscarded : Obligations.BusyAndDiscarded := by
  intro s hlistening
  refine ⟨fun hslot hwaiting => ⟨fun c kind f hc hb => ?request, fun kind f hb => exec_busy hlistening hslot hwaiting kind hb⟩,
    fun hwaiting c kind f hc hb => ?discarded⟩
  case request =>
    obtain ⟨owner, hexec, -⟩ := owner_of_request hc
    rw [hexec, request_busy hlistening hslot hwaiting kind hb, replyKind_of_request hc]
  case discarded =>
    obtain ⟨owner, hexec, -⟩ := owner_of_request hc
    rw [hexec, request_waiting hlistening hwaiting kind hb]

/-! ### Kinds outside the catalogue (R181) -/

theorem exec_unknownRequest {s : State} {kind : Byte} (hkind : catalogue.contains kind = false) (hfree : s.free)
    {f : PlainFrame} (hb : fitsFrame f.body) :
    exec (.unknownRequest kind f) s = .next (s.asTaken.putLink (s.asTaken.link.transmit
      ⟨replyKind kind, f.seq, .unknownRequest, .none, true, false⟩)) := by
  obtain ⟨⟨hrun, hrx⟩, hslot, hwaiting⟩ := hfree
  show execUnknownRequest kind f s = _
  unfold execUnknownRequest State.whileRunning
  rw [hkind, if_neg Bool.false_ne_true, hrun]
  dsimp only
  rw [frameArrives_hunting hrx _ _ hb]
  simp [State.frameTaken, hslot, hwaiting, State.asTaken, Answer.sent, State.says]

/-! ### The rows that carry bytes (R178) -/

theorem exec_frameError {s : State} (hrun : s.run = .running) (bytes after : List RxByte) :
    exec (.frameError bytes after) s = .next ((s.receive otherFrame bytes).receive otherFrame after) := by
  show execFrameError bytes after s = _
  unfold execFrameError State.whileRunning
  rw [hrun]

theorem exec_frameError_alone {s : State} (hrun : s.run = .running) (bytes : List RxByte) :
    exec (.frameError bytes []) s = .next (s.receive otherFrame bytes) := exec_frameError hrun bytes []

theorem exec_frameTimeout {s : State} (hrun : s.run = .running) (bytes : PausedBytes) :
    exec (.frameTimeout bytes) s
      = .next (((s.receive otherFrame bytes.before).putRx .hunting).receive otherFrame bytes.after) := by
  show execFrameTimeout bytes s = _
  unfold execFrameTimeout State.whileRunning
  rw [hrun]

/-- The bytes that follow are judged on their own, at once or, after a pause, from HUNTING. -/
theorem frameError_then {s t : State} {bytes : List RxByte} (hrun : s.run = .running)
    (ht : exec (.frameError bytes []) s = .next t) (after : List RxByte) :
    exec (.frameError bytes after) s = exec (.frameError after []) t
    ∧ exec (.frameTimeout ⟨bytes, after⟩) s = exec (.frameError after []) (t.putRx .hunting) := by
  rw [exec_frameError_alone hrun, Host.Outcome.next.injEq] at ht
  subst ht
  have hruns : (s.receive otherFrame bytes).run = .running := (ownedButLink_receiveOther s bytes).run.trans hrun
  have hruns' : ((s.receive otherFrame bytes).putRx .hunting).run = .running := hruns
  exact ⟨by rw [exec_frameError hrun, exec_frameError_alone hruns],
    by rw [exec_frameTimeout hrun, exec_frameError_alone hruns']⟩

/-! ### Frames that fail, are noise or are cut off (O11) -/

/-- An undamaged start byte on a port at the start of a frame. -/
theorem receive_start {on : OnFrame} {s : State} (h : s.link.rx = .hunting) (bytes : List RxByte) :
    s.receive on (⟨0xA5, false⟩ :: bytes) = (s.putRx (.receiving [] false)).receive on bytes := by
  have hstart : s.receiveByte on ⟨0xA5, false⟩ = s.putRx (.receiving [] false) := by
    unfold State.receiveByte
    rw [h]
    rfl
  exact congrArg (State.receive on · bytes) hstart

/-- Bytes that start no frame are discarded. -/
theorem receive_noise {on : OnFrame} {s : State} (h : s.link.rx = .hunting) {bytes : List RxByte}
    (hnoise : ∀ x ∈ bytes, x.value ≠ 0xA5) : s.receive on bytes = s := by
  induction bytes with
  | nil => rfl
  | cons x bytes ih =>
    obtain ⟨hx, hrest⟩ := List.forall_mem_cons.1 hnoise
    have hdiscarded : s.receiveByte on x = s := by
      unfold State.receiveByte
      rw [h, RxState.take, if_neg fun hstart => hx hstart.1]
      exact State.putRx_same h
    calc s.receive on (x :: bytes) = (s.receiveByte on x).receive on bytes := rfl
      _ = s.receive on bytes := by rw [hdiscarded]
      _ = s := ih hrest

/-- A length above 120 ends the frame at once. -/
theorem receive_overlong {on : OnFrame} {s : State} (h : s.link.rx = .hunting) {len : Byte} (hlen : 120 < len.toNat) :
    s.receive on [⟨0xA5, false⟩, ⟨len, false⟩] = s.errorReply 0x80 0 .frameError := by
  have hof : RxState.of ([] ++ [len]) (false || false) = (.hunting, .failed) := if_pos hlen
  rw [receive_start h]
  show State.receiveByte on _ _ = _
  unfold State.receiveByte
  rw [State.putRx_link, RxState.take, hof]
  dsimp only
  rw [State.putRx_putRx, State.putRx_same h, State.rxEvent]

/-- The first bytes of a request frame, short of its last, are discarded by a pause. -/
theorem receive_cut {on : OnFrame} {s : State} (h : s.link.rx = .hunting) (kind seq : Byte) {body : List Byte}
    (hb : fitsFrame body) {n : Nat} (hn : n < body.length + 6) :
    (s.receive on (goodBytes ((requestFrame kind seq body).take n))).putRx .hunting = s := by
  cases n with
  | zero => exact State.putRx_same h
  | succ n =>
    rw [show goodBytes ((requestFrame kind seq body).take (n + 1)) = ⟨0xA5, false⟩ :: goodBytes ((frameTail kind seq body).take n)
      from rfl, receive_start h]
    cases n with
    | zero => exact State.putRx_same h
    | succ n =>
      have hlen : (BitVec.ofNat 8 body.length).toNat = body.length := by
        have : body.length ≤ 120 := hb
        simp only [BitVec.toNat_ofNat]
        omega
      have hfirst : [] ++ (frameTail kind seq body).take (n + 1)
          = BitVec.ofNat 8 body.length :: (frameTail kind seq body).tail.take n := rfl
      have hshort : ([] ++ (frameTail kind seq body).take (n + 1)).length < (BitVec.ofNat 8 body.length).toNat + 5 := by
        rw [hlen, List.nil_append, List.length_take]
        omega
      rw [receive_short on s _ (hlen.trans_le hb) _ [] _ hfirst hshort, State.putRx_putRx, State.putRx_same h]

theorem be16_injective {a b : Half} (h : be16 a.toNat = be16 b.toNat) : a = b := by
  obtain ⟨hhigh, hlow⟩ := List.cons_eq_cons.1 h
  apply BitVec.eq_of_toNat_eq
  rw [← num16_be16 a.isLt, ← num16_be16 b.isLt, hhigh, (List.cons_eq_cons.1 hlow).1]

theorem goodBytes_value (bytes : List Byte) : (goodBytes bytes).map (·.value) = bytes := by
  simp [goodBytes, Function.comp_def]

/-- A request frame with another CRC fails. -/
theorem receive_wrongCrc {on : OnFrame} {s : State} (h : s.link.rx = .hunting) (kind seq : Byte) {body : List Byte}
    (hb : fitsFrame body) {crc : Half} (hcrc : crc ≠ crc16 (requestInner kind seq body)) :
    s.receive on (goodBytes (0xA5 :: requestInner kind seq body ++ be16 crc.toNat)) = s.errorReply 0x80 0 .frameError := by
  have hinner : (requestInner kind seq body).length = body.length + 3 := by simp [requestInner]
  have hfailed := receive_failed on s kind seq hb (goodBytes (requestInner kind seq body ++ be16 crc.toNat))
    (by simp [goodBytes, hinner, be16]) (by rw [goodBytes_value, List.take_left' hinner])
    (.inr (by rw [goodBytes_value, List.drop_left' hinner]; exact mt be16_injective hcrc))
  rw [State.putRx_same h] at hfailed
  exact (receive_start h _).trans hfailed

/-- A request frame with a damaged byte fails. -/
theorem receive_damaged {on : OnFrame} {s : State} (h : s.link.rx = .hunting) (kind seq : Byte) {body : List Byte}
    (hb : fitsFrame body) {bytes : List RxByte} (hbytes : bytes.map (·.value) = (requestFrame kind seq body).tail)
    (hdamaged : ∃ x ∈ bytes, x.damaged = true) :
    s.receive on (⟨0xA5, false⟩ :: bytes) = s.errorReply 0x80 0 .frameError := by
  have hinner : (requestInner kind seq body).length = body.length + 3 := by simp [requestInner]
  have htail : bytes.map (·.value) = frameTail kind seq body := hbytes
  have hlength : bytes.length = body.length + 5 := by rw [← frameTail_length kind seq, ← htail, List.length_map]
  have hfailed := receive_failed on s kind seq hb bytes hlength
    (by rw [htail, frameTail, List.take_left' hinner]) (.inl hdamaged)
  rw [State.putRx_same h] at hfailed
  exact (receive_start h _).trans hfailed

/-- Settles O11: the receiver judges each kind of frame, and FRAME-ERROR is the one reply that it makes itself. -/
theorem framesOfNoRequest : Obligations.FramesOfNoRequest := by
  intro s
  refine ⟨fun kind f hkind hfree hb => exec_unknownRequest hkind hfree hb, ?bytes,
    fun hrun bytes after t ht => frameError_then hrun ht after⟩
  rintro ⟨hrun, hrx⟩ failed
  have fails {bytes : List RxByte} (h : s.receive otherFrame bytes = s.errorReply 0x80 0 .frameError) :
      exec (.frameError bytes []) s = .next failed := by
    rw [exec_frameError_alone hrun, h, errorReply_eq]
  refine ⟨fun kind seq body hb => ⟨fun crc hcrc => fails (receive_wrongCrc hrx kind seq hb hcrc),
      fun bytes hbytes hdamaged => fails (receive_damaged hrx kind seq hb hbytes hdamaged), fun n hn => ?cut⟩,
    fun len hlen => fails (receive_overlong hrx hlen), fun bytes hnoise => ?noise⟩
  case cut =>
    rw [exec_frameTimeout hrun, receive_cut hrx kind seq hb hn]
    rfl
  case noise => rw [exec_frameError_alone hrun, receive_noise hrx hnoise]

end Sys2Proof.Machine
end

section
/-! O5, O6: the end of start-up, with a good image or with the defaults. -/

namespace Sys2Proof.Machine

open Sys2Proof

/-! ### What the end of start-up installs (R191) -/

theorem whileRunning_running {s : State} (h : s.run = .running) (f : State → State) : s.whileRunning f = f s := by
  rw [State.whileRunning, h]

/-- IMAGE_LOAD_COMPLETE ends the start-up of a STARTING part. -/
theorem exec_imageLoadComplete {s : State} (hrun : s.run = .running) (hpart : s.eng.part = .starting) (r : ImageRead) :
    exec (.imageLoadComplete r) s = .next (s.finishStart r) := by
  show execImageLoadComplete r s = _
  simp only [execImageLoadComplete, whileRunning_running hrun, hpart]

/-- An image that is read, from the memory or put there from outside, is the stored one from then on (log 20). -/
theorem imageRead_image {s : State} {i : Image} {r : ImageRead} (hr : r = .supplied i ∨ (r = .stored ∧ s.stored = some i)) :
    s.imageRead r = some i ∧ s.storedAfterRead r = some i := by
  rcases hr with rfl | ⟨rfl, hs⟩
  · exact ⟨rfl, rfl⟩
  · exact ⟨hs, hs⟩

/-- A good image that is read is installed where LOAD was latched set (R191). -/
theorem imageToInstall_good {s : State} {i : Image} {r : ImageRead} (hload : s.tab.straps.load = true)
    (hread : s.imageRead r = some i) (hok : imageOk i = true) : s.imageToInstall r = some i := by
  simp [State.imageToInstall, hload, hread, hok]

/-- LOAD latched clear, no image read, or one whose tables break their constraints: none is installed (R191). -/
theorem imageToInstall_none {s : State} {r : ImageRead}
    (h : s.tab.straps.load = false ∨ s.imageRead r = none ∨ ∃ i, s.imageRead r = some i ∧ imageOk i = false) :
    s.imageToInstall r = none := by
  unfold State.imageToInstall
  rcases h with hload | hnone | ⟨i, hread, hbad⟩
  · simp [hload]
  · simp [hnone]
  · simp [hread, hbad]

theorem finishStart_image {s : State} {i : Image} {r : ImageRead} (h : s.imageToInstall r = some i) :
    s.finishStart r = ({ s with stored := s.storedAfterRead r }).install i .valid := by
  simp only [State.finishStart, h]

/-- Without an image the defaults are installed, whatever the memory holds after the read. -/
theorem finishStart_defaults {s : State} {r : ImageRead} (h : s.imageToInstall r = none) :
    ∃ m, s.finishStart r
      = ({ s with stored := m }).install defaultImage (if s.tab.straps.load then .bad else .notLoaded) := by
  cases hload : s.tab.straps.load with
  | true => exact ⟨s.storedAfterRead r, by simp [State.finishStart, h, hload]⟩
  | false => exact ⟨s.stored, by simp [State.finishStart, h, hload]⟩

/-! ### The banks of what is installed -/

/-- Slots 0 to 79 are EMPTY after start-up, 80 to 95 the image's (R27). -/
theorem nth_imageSlots (i : Image) (k : Fin 96) : Bank.nth (imageSlots i) k
    = if h : 80 ≤ k.val then Bank.nth i.slots ⟨k.val - 80, by omega⟩ else .empty := by
  simp [imageSlots, Bank.nth]

/-- Every mapped input is LOST after start-up (R11). -/
theorem nth_install_inputs (s : State) (i : Image) (status : ImageStatus) (k : InputNo) :
    Bank.nth (s.install i status).sbe.inputs k = if Bank.nth i.map k = .unused then none else some ⟨.lost, none, 3⟩ := by
  rw [← freshInput_eq]
  simp [State.install, Bank.nth]

/-- The default image leaves every slot EMPTY. -/
theorem nth_imageSlots_default (k : Fin 96) : Bank.nth (imageSlots defaultImage) k = .empty := by
  rw [nth_imageSlots]
  split
  · exact Bank.nth_replicate _ _
  · rfl

/-- The default role map stands, fit for R116 or not. -/
theorem imageRoleMap_default (straps : Straps) : imageRoleMap straps defaultImage = defaultRoleMap := ite_self _

/-- Settles O5: the good image is the one installed, and every item of it is where its owner has it. -/
theorem imageInstalled : Obligations.ImageInstalled := by
  intro s i r hrun hpart hload hr hok
  obtain ⟨hread, hstored⟩ := imageRead_image hr
  have hexec := exec_imageLoadComplete hrun hpart r
  rw [finishStart_image (imageToInstall_good hload hread hok), hstored] at hexec
  exact ⟨_, hexec, rfl, rfl, rfl, rfl, rfl, rfl, nth_imageSlots i, rfl, rfl, rfl, rfl, rfl, rfl, rfl, rfl,
    nth_install_inputs { s with stored := some i } i .valid, rfl, rfl⟩

/-- Settles O6: no image is installed, so the defaults are, and with their AUTO-RELEASE flag clear lockout stays set. -/
theorem defaultsInstalled : Obligations.DefaultsInstalled := by
  intro s r hrun hpart hcause
  have hnone : s.imageToInstall r = none := by
    refine imageToInstall_none ?_
    rcases hcause with hload | rfl | rfl | ⟨rfl, hs⟩ | ⟨i, hi, hbad⟩
    · exact .inl hload
    · exact .inr (.inl rfl)
    · exact .inr (.inl rfl)
    · exact .inr (.inl hs)
    · exact .inr (.inr ⟨i, (imageRead_image hi).1, hbad⟩)
  obtain ⟨m, hfinish⟩ := finishStart_defaults hnone
  have hexec := exec_imageLoadComplete hrun hpart r
  rw [hfinish] at hexec
  refine ⟨_, hexec, rfl, rfl, Bank.nth_replicate _, rfl, Bank.nth_replicate _, fun k => ?slots, rfl, rfl,
    imageRoleMap_default _, rfl, rfl, rfl, rfl, rfl, ?lockout⟩
  case slots =>
    show Bank.nth (imageSlots defaultImage) k = .empty
    exact nth_imageSlots_default k
  case lockout =>
    show (!(_ && false)) = true
    rw [Bool.and_false, Bool.not_false]

end Sys2Proof.Machine
end

section
/-! O13: RESET is answered, and its effects follow the reply. -/

namespace Sys2Proof.Machine

open Sys2Proof

/-! ### The engine at a soft reset (R198) -/

/-- The end of a hand-over reaches its record and the meters alone (R20, R125). -/
theorem endHandOver_eq (e : Engine) :
    ∃ ms, e.endHandOver = { e with meters := ms, ost := { e.ost with handOver := none } } := by
  cases hh : e.ost.handOver with
  | none =>
    have hkeep : e.endHandOver = e := by simp only [Engine.endHandOver, hh]
    have hnone : e.ost = { e.ost with handOver := none } := by rw [← endHandOver_ost, hkeep]
    exact ⟨e.meters, by rw [hkeep, ← hnone]⟩
  | some h =>
    rw [endHandOver_some hh]
    unfold Engine.meterHandOverEnded
    split <;> exact ⟨_, rfl⟩

/-- What a soft reset makes of the engine but for the meters, which a hand-over's end may tell (R20). -/
theorem softReset_eq (e : Engine) : ∃ ms, e.softReset = { e with
    meters := ms
    channels := Vector.replicate 6 .initial
    mar := .initial
    ost := e.ost.afterReset
    zones := Bank.each e.zones (fun z => { ZoneRec.initial with depleted := z.depleted, full := z.full })
    crg := { e.crg with state := .disabled }
    reports := [] } := by
  obtain ⟨ms, h⟩ := endHandOver_eq e
  exact ⟨ms, by simp only [Engine.softReset, h, OutputStage.afterReset]⟩

section
variable (e : Engine)

theorem channel_softReset (c : ChannelNo) : e.softReset.channel c = .initial := Bank.nth_replicate _ _

theorem order_softReset (c : ChannelNo) : e.softReset.order c = none := congrArg Channel.order (channel_softReset e c)

theorem output_softReset (o : OutputNo) : e.softReset.output o = (e.output o).afterReset := by
  obtain ⟨ms, h⟩ := softReset_eq e
  rw [h]
  exact Bank.nth_each _ _ _

theorem valve_softReset (v : ValveNo) : e.softReset.valve v = (e.valve v).afterReset := by
  obtain ⟨ms, h⟩ := softReset_eq e
  rw [h]
  exact Bank.nth_each _ _ _

theorem zone_softReset (z : Zone) : e.softReset.zone z
    = { ZoneRec.initial with depleted := (e.zone z).depleted, full := (e.zone z).full } := by
  obtain ⟨ms, h⟩ := softReset_eq e
  rw [h]
  exact Bank.nth_each _ _ _

/-- What a soft reset keeps of the engine, the regulator's settings among it (R117, R131, R166, R198). -/
theorem softReset_keeps : e.softReset.part = e.part ∧ e.softReset.crg = { e.crg with state := .disabled }
    ∧ e.softReset.ost.roleMap = e.ost.roleMap ∧ e.softReset.ost.circuit = e.ost.circuit := by
  obtain ⟨ms, h⟩ := softReset_eq e
  rw [h]
  exact ⟨rfl, rfl, rfl, rfl⟩

end

/-- A test that a soft reset abandons leaves its output FAULTED (R129). -/
theorem output_afterReset_state (r : OutputRec) : r.afterReset.state = if r.state = .inService then .inService else .faulted := by
  cases h : r.state <;> simp [OutputRec.afterReset, h]

/-- A valve under way stands where it stands (R131). -/
theorem valve_afterReset_state (v : ValveRec) :
    v.afterReset.state = if v.state = .faulted then .faulted else .atPosition := by
  cases h : v.state <;> simp [ValveRec.afterReset, h]

/-! ### The save that a soft reset abandons (R193) -/

/-- A save is abandoned only while it is WRITING. -/
theorem abandonSave_eq (s : State) : s.abandonSave = if s.cfc.save = .writing then s.saveFails else s := by
  unfold State.abandonSave
  cases s.cfc.save <;> rfl

/-- An abandoned save touches neither mode nor locks, neither window nor AUTO-RELEASE flag. -/
theorem abandonSave_keeps (s : State) : s.abandonSave.cfc.mode = s.cfc.mode ∧ s.abandonSave.cfc.locks = s.cfc.locks
    ∧ s.abandonSave.cfc.window = s.cfc.window ∧ s.abandonSave.cfc.autoRelease = s.cfc.autoRelease := by
  rw [abandonSave_eq]
  split <;> exact ⟨rfl, rfl, rfl, rfl⟩

theorem abandonSave_writing {s : State} (h : s.cfc.save = .writing) : s.abandonSave = s.saveFails := by
  rw [abandonSave_eq, if_pos h]

theorem abandonSave_other {s : State} (h : s.cfc.save ≠ .writing) : s.abandonSave = s := by
  rw [abandonSave_eq, if_neg h]

/-! ### The reply that leaves (R180, R186) -/

/-- A RESET's reply frees the slot and lets the waiting one follow, after the reset's effects. -/
theorem exec_replySent_resets {s : State} {r : TxReply} (hrun : s.run = .running) (hsending : s.link.sending = some r)
    (hresets : r.resets = true) (hslot : r.ofSlot = true) : exec .replySent s = .next (s.softReset.putLink
      { s.softReset.link with slot := .free, sending := s.softReset.link.waiting, waiting := none }) := by
  show execReplySent s = _
  simp [execReplySent, whileRunning_running hrun, State.replyLeft, hsending, hresets, hslot]

/-- What a soft reset makes of the state beside the engine: each field from what the abandoned save leaves. -/
theorem softReset_state (s : State) : s.softReset = { s with
    eng := s.eng.softReset
    tab := { s.tab with tuning := keptTuning s.tab.tuning s.abandonSave.cfc.imageTuning }
    cfc := { s.abandonSave.cfc with lockout := true, parkTimer := 0 }
    panel := { s.panel with buffer := [], overlong := false }
    stored := s.abandonSave.stored } := by
  rw [State.softReset, abandonSave_eq]
  split <;> rfl

/-- Settles O13: the answer by the owner, the effects by what a soft reset makes of the engine and of a save that is WRITING. -/
theorem resetAfterItsReply : Obligations.ResetAfterItsReply := by
  refine ⟨fun s f h => request_accepted h 0x58 answerReset, fun s r hrun hsending hresets hslot => ?_⟩
  have hexec := exec_replySent_resets hrun hsending hresets hslot
  rw [softReset_state] at hexec
  obtain ⟨hmode, hlocks, hwindow, hauto⟩ := abandonSave_keeps s
  obtain ⟨hpart, hcrg, hmap, hcircuit⟩ := softReset_keeps s.eng
  refine ⟨_, hexec, rfl, order_softReset s.eng, fun c => ?queued, rfl, rfl, fun o => ?level, rfl, fun o => ?output,
    fun v => ?valve, fun z => ?zone, hcrg, hmap, hcircuit, hpart, rfl, rfl, hmode, hlocks, hwindow, hauto,
    fun hw => ?abandoned, fun hn => ?kept, rfl, rfl, rfl, rfl⟩
  case queued => exact congrArg Channel.recordQueued (channel_softReset s.eng c)
  case level => exact congrArg OutputRec.level (output_softReset s.eng o)
  case output =>
    rw [State.putLink_eng, output_softReset]
    exact ⟨rfl, output_afterReset_state _⟩
  case valve =>
    rw [State.putLink_eng, valve_softReset]
    exact ⟨rfl, rfl, rfl, valve_afterReset_state _⟩
  case zone =>
    rw [State.putLink_eng, zone_softReset]
    exact ⟨rfl, rfl, rfl⟩
  case abandoned =>
    rw [abandonSave_writing hw]
    exact ⟨rfl, rfl, rfl, rfl⟩
  case kept =>
    rw [abandonSave_other hn]
    exact ⟨rfl, rfl, rfl, rfl⟩

end Sys2Proof.Machine
end

section
/-! O56: outside READY no order runs, the regulator starts none and every output is at 0, and every command keeps it so. -/

namespace Sys2Proof.Machine

open Sys2Proof

/-! ### What a change of the engine keeps (R196, R197) -/

/-- The part rests outside READY: no order, a regulator that starts none, every output at 0 (R196, R197). -/
def State.Rests (s : State) : Prop := s.eng.restsOutsideReady

/-- A change that leaves a READY part READY, and a part that rests outside READY at rest there. -/
structure KeepsRest (a b : Engine) : Prop where
  ready : a.part = .ready → b.part = .ready
  calm : Calm a → Calm b

theorem KeepsRest.refl (e : Engine) : KeepsRest e e := ⟨id, id⟩

theorem KeepsRest.trans {a b c : Engine} (h : KeepsRest a b) (k : KeepsRest b c) : KeepsRest a c :=
  ⟨k.ready ∘ h.ready, k.calm ∘ h.calm⟩

theorem keepsRest_of_flow {a b : Engine} (hf : Flow a b) (hc : Calm a → Calm b) : KeepsRest a b := ⟨hf.ready, hc⟩

/-- A change that touches neither part state, channels, regulator state nor outputs. -/
theorem KeepsRest.same {a b : Engine} (h1 : b.part = a.part) (h2 : b.channels = a.channels)
    (h3 : b.crg.state = a.crg.state) (h4 : b.ost.outputs = a.ost.outputs) : KeepsRest a b :=
  ⟨h1.trans, fun h => h.same h1 h2 h3 h4⟩

theorem keepsRest_wakeUp (e : Engine) : KeepsRest e e.wakeUp :=
  ⟨fun h => by rwa [Engine.wakeUp_ready e h], calm_wakeUp⟩

section
variable {s t : State} (h : s.Rests)
include h

theorem rests_of_keeps (k : KeepsRest s.eng t.eng) : t.Rests := fun ht => by
  have hs : s.eng.part ≠ .ready := mt k.ready ht
  obtain ⟨horders, hcomfort, hlevels⟩ := h hs
  obtain ⟨-, horders', hcomfort', hlevels'⟩ := k.calm ⟨hs, horders, hcomfort, hlevels⟩
  exact ⟨horders', hcomfort', hlevels'⟩

theorem rests_of_eq (he : t.eng = s.eng) : t.Rests := rests_of_keeps h (he ▸ .refl _)

end

theorem rests_of_ready {s : State} (h : s.eng.part = .ready) : s.Rests := fun hn => absurd h hn

/-- The park conditions are what a PARKED part keeps; the entry puts the outputs to 0 (R196). -/
theorem rests_enterParked {s : State} (h : s.quiet) : s.enterParked.Rests := by
  obtain ⟨horders, hcomfort, -⟩ := h
  obtain ⟨-, houtputs, -⟩ := parksTo_enterParked s
  exact fun _ => ⟨horders, hcomfort, fun o => by rw [houtputs]⟩

theorem rests_parkIfDue {s : State} (h : s.Rests) : s.parkIfDue.Rests := by
  unfold State.parkIfDue
  split
  · rename_i hdue
    obtain ⟨-, hquiet⟩ := Bool.and_eq_true_iff.1 hdue
    exact rests_enterParked ((parkable_iff_quiet s).1 hquiet)
  · exact h

/-! ### The owners of the requests -/

/-- The part as a request's owner finds it: READY or WAKING (R181). -/
def State.Hears (s : State) : Prop := s.eng.part = .ready ∨ s.eng.part = .waking

/-- The record of a channel leaves the queue, and its flag goes with it: no order comes or goes (R172, R173). -/
theorem keepsRest_dropFlag (e : Engine) (q : List Report) (c : ChannelNo) :
    KeepsRest e ({ e with reports := q }.putChannel c { e.channel c with recordQueued := false }) := by
  refine ⟨id, fun h => ⟨h.part, fun d => ?_, h.comfort, h.levels⟩⟩
  have horder := h.orders d
  by_cases hd : c = d
  · subst hd
    rw [Engine.order, Engine.channel_putChannel_self]
    exact horder
  · rw [Engine.order, Engine.channel_putChannel_ne _ _ hd]
    exact horder

/-- START ORDER is refused while WAKING (R50); HALT ORDER finds every channel IDLE outside READY. -/
theorem rests_orderOwner {s : State} (h : s.Rests) (hears : s.Hears) :
    (∀ c l k t w, (answerStart c l k t w s).state.Rests) ∧ (∀ c, (answerHalt c s).state.Rests)
    ∧ (∀ c, (answerQuery c s).state.Rests) ∧ (answerFetch s).state.Rests := by
  have := flow_judges
  have hk := via_grantScan (R := Flow) s.tab
  refine ⟨fun c l k t w => ?start, fun c => ?halt, fun c => ?query, ?fetch⟩
  case start =>
    unfold answerStart
    split
    · exact h
    · split
      · exact h
      · rename_i hnone
        split
        · exact h
        · rcases hears with hready | hwaking
          · exact rests_of_ready ((via_takeOrder hk _ _ _ _).it.ready hready)
          · simp [State.startRefusal, hwaking] at hnone
  case halt =>
    have hend (c : ChannelNo) (g : Ending) :
        KeepsRest s.eng (s.eng.imposeEnd s.tab (Engine.grantScan s.tab) c g) :=
      keepsRest_of_flow (via_imposeEnd hk _ _ _ _).it fun hc => by rwa [imposeEnd_idle _ _ _ (hc.orders c)]
    unfold answerHalt
    repeat' split
    all_goals first | exact h | exact rests_of_keeps h (hend _ _)
  case query =>
    unfold answerQuery
    split
    · exact h
    · split
      · exact rests_of_keeps h (keepsRest_dropFlag _ _ _)
      · split <;> exact h
  case fetch =>
    cases hq : s.eng.reports with
    | nil =>
      rw [answerFetch_empty hq]
      exact h
    | cons r rest =>
      rw [answerFetch_oldest hq]
      refine rests_of_keeps h ?_
      show KeepsRest s.eng (({ s.eng with reports := rest }).clearFlagFor r)
      unfold Engine.clearFlagFor
      split
      · exact keepsRest_dropFlag _ _ _
      all_goals exact .same rfl rfl rfl rfl

/-- Of the owners of the requests on tables WRITE ZONE alone reaches the engine; outside READY it leaves a start pending (R134). -/
theorem rests_tableOwner {s : State} (h : s.Rests) :
    (∀ b, (answerWriteSegments b s).state.Rests) ∧ (∀ a b, (answerReadSegments a b s).state.Rests)
    ∧ (∀ n w, (answerWritePath n w s).state.Rests) ∧ (∀ n, (answerReadPath n s).state.Rests)
    ∧ (∀ n w, (answerWriteZone n w s).state.Rests) ∧ (∀ n, (answerReadZone n s).state.Rests)
    ∧ (∀ es, (answerWriteSensorMap es s).state.Rests) ∧ ∀ a x y, (answerChecksum a x y s).state.Rests := by
  refine ⟨fun b => ?writeSegments, fun a b => ?readSegments, fun n w => ?writePath, fun n => ?readPath, fun n w => ?writeZone,
    fun n => ?readZone, fun es => ?map, fun a x y => ?checksum⟩
  case writeSegments =>
    unfold answerWriteSegments
    split
    · exact h
    · split
      · exact h
      · exact rests_of_eq h (State.putTables_eng _ _)
  case readSegments =>
    unfold answerReadSegments
    split <;> exact h
  case writePath =>
    unfold answerWritePath
    repeat' split
    all_goals exact h
  case readPath =>
    unfold answerReadPath
    split <;> exact h
  case writeZone =>
    have := flow_judges
    have hwrite (z : Zone) (x : ZoneChange) : (s.takeZoneWrite z x).Rests := by
      unfold State.takeZoneWrite
      dsimp only
      split
      · exact rests_of_keeps h (keepsRest_of_flow (via_rejudgePending (via_grantScan _) _ _ _).it
          fun hc => calm_rejudgePending hc _ _ _)
      · exact h
    unfold answerWriteZone
    repeat' split
    all_goals first | exact h | exact hwrite _ _
  case readZone =>
    unfold answerReadZone
    split <;> exact h
  case map =>
    unfold answerWriteSensorMap
    repeat' split
    all_goals exact h
  case checksum =>
    unfold answerChecksum
    split <;> exact h

/-- TEST OUTPUT and COMFORT ON are refused while WAKING (R127, R155); an exchange starts the spare from 0, and COMFORT OFF ends the
regulator's work (R124, R156). -/
theorem rests_moverOwner {s : State} (h : s.Rests) (hears : s.Hears) :
    (∀ r b, (answerExchange r b s).state.Rests) ∧ (∀ i, (answerTest i s).state.Rests)
    ∧ (∀ x, (answerTarget x s).state.Rests) ∧ (∀ g, (answerComfortOn g s).state.Rests)
    ∧ (answerComfortOff s).state.Rests ∧ ∀ b, (answerPanelLock b s).state.Rests := by
  have := flow_judges
  have := flow_drives
  refine ⟨fun r b => ?exchange, fun i => ?test, fun x => ?target, fun g => ?comfortOn, ?comfortOff, fun b => ?panelLock⟩
  case exchange =>
    unfold answerExchange
    split
    · exact h
    · exact rests_of_keeps h (keepsRest_of_flow (via_exchangeAtOnce _ _ _ _).it fun hc => calm_exchangeAtOnce hc _ _ _)
    · exact rests_of_keeps h (keepsRest_of_flow (via_exchangeHeld _ _ _ _).it fun hc => calm_exchangeHeld hc _ _ _)
  case test =>
    rcases hears with hready | hwaking
    · unfold answerTest answerOutputTest answerValveTest
      repeat' split
      all_goals exact rests_of_ready hready
    · unfold answerTest answerOutputTest answerValveTest
      simp only [hwaking, if_true]
      repeat' split
      all_goals exact h
  case target =>
    have hset (x : Int) : (s.putRegulator { s.eng.crg with target := x }).Rests := rests_of_keeps h (.same rfl rfl rfl rfl)
    unfold answerTarget
    dsimp only
    split
    · exact hset _
    · exact h
  case comfortOn =>
    unfold answerComfortOn
    split
    · exact h
    · split
      · exact h
      · rename_i hwaking
        have hready := hears.resolve_right hwaking
        repeat' split
        all_goals exact rests_of_ready hready
  case comfortOff =>
    exact rests_of_keeps h (keepsRest_of_flow (via_comfortDisable (via_grantScan s.tab) _ _).it
      fun hc => calm_comfortDisable hc _ _)
  case panelLock =>
    unfold answerPanelLock
    split <;> exact h

/-- Of the owners of configuration control PARK alone reaches the engine, when the park conditions hold (R196). -/
theorem rests_controlOwner {s : State} (h : s.Rests) :
    (∀ t b, (answerTuning t b s).state.Rests) ∧ (∀ m, (answerMode m s).state.Rests)
    ∧ (∀ l, (answerSetLock l s).state.Rests) ∧ (answerReleasePathLock s).state.Rests
    ∧ (∀ w, (answerWindow w s).state.Rests) ∧ (answerSave s).state.Rests ∧ (answerPark s).state.Rests := by
  refine ⟨fun t b => ?tuning, fun m => ?mode, fun l => ?setLock, ?pathLock, fun w => ?window, ?save, ?park⟩
  case tuning =>
    unfold answerTuning
    repeat' split
    all_goals exact h
  case mode =>
    unfold answerMode
    repeat' split
    all_goals exact h
  case setLock =>
    unfold answerSetLock
    repeat' split
    all_goals exact h
  case pathLock =>
    unfold answerReleasePathLock
    repeat' split
    all_goals exact h
  case window =>
    unfold answerWindow
    repeat' split
    all_goals exact h
  case save =>
    unfold answerSave
    split <;> exact h
  case park =>
    unfold answerPark
    split
    · rename_i hpark
      exact rests_enterParked ((parkable_iff_quiet s).1 hpark.2)
    · exact h

/-- Every request's owner keeps the rest outside READY; but for the two that are answered while STARTING it is asked by a READY
or a WAKING part alone. -/
theorem rests_owner {c : Instr} {kind : Byte} {f : Frame} (hq : requestOf c = some (kind, f)) :
    ∃ owner : State → Answer, (∀ s, exec c s = s.request kind f owner)
      ∧ ∀ s, s.Rests → (answeredStarting kind = false → s.Hears) → (owner s).state.Rests := by
  cases c <;> simp only [requestOf, Option.some.injEq, Prod.mk.injEq, reduceCtorEq] at hq
  all_goals
    obtain ⟨rfl, rfl⟩ := hq
    refine ⟨_, fun _ => rfl, fun s h hears => ?_⟩
  case identify | readStatus => exact h
  all_goals
    have hears : s.Hears := hears (by decide)
    obtain ⟨hstart, hhalt, hquery, hfetch⟩ := rests_orderOwner h hears
    obtain ⟨hwriteSegments, hreadSegments, hwritePath, hreadPath, hwriteZone, hreadZone, hmap, hchecksum⟩ := rests_tableOwner h
    obtain ⟨hexchange, htest, htarget, hcomfortOn, hcomfortOff, hpanelLock⟩ := rests_moverOwner h hears
    obtain ⟨htuning, hmode, hsetLock, hpathLock, hwindow, hsave, hpark⟩ := rests_controlOwner h
  case startOrder => exact hstart _ _ _ _ _
  case haltOrder => exact hhalt _
  case queryChannel => exact hquery _
  case fetchReport => exact hfetch
  case writeSegments => exact hwriteSegments _
  case readSegments => exact hreadSegments _ _
  case writePath => exact hwritePath _ _
  case readPath => exact hreadPath _
  case writeZone => exact hwriteZone _ _
  case readZone => exact hreadZone _
  case writeSensorMap => exact hmap _
  case checksum => exact hchecksum _ _ _
  case exchangeRole => exact hexchange _ _
  case testOutput => exact htest _
  case setCabinTarget => exact htarget _
  case comfortOn => exact hcomfortOn _
  case comfortOff => exact hcomfortOff
  case panelLock => exact hpanelLock _
  case setTuning => exact htuning _ _
  case setMode => exact hmode _
  case setLock => exact hsetLock _
  case releasePathLock => exact hpathLock
  case setPathWindow => exact hwindow _
  case saveConfiguration => exact hsave
  case park => exact hpark
  -- What is left answers from the state, or changes the lockout alone.
  all_goals exact h

/-! ### Frames, panel and restarts -/

theorem rests_errorReply {s : State} (h : s.Rests) (k q : Byte) (c : ReplyCode) : (s.errorReply k q c).Rests := by
  unfold State.errorReply
  split <;> exact h

/-- A completed frame may wake the part, which is still not READY then (R181, R197). -/
theorem rests_frameComplete {s : State} (h : s.Rests) : s.frameComplete.Rests := rests_of_keeps h (keepsRest_wakeUp s.eng)

/-- A completed frame has woken a PARKED part before its request is judged (R181). -/
theorem rests_frameTaken {s : State} (h : s.Rests) (kind seq : Byte) {judge : State → Answer}
    (hj : ∀ u : State, u.Rests → u.eng.part ≠ .parked → (judge u).state.Rests) : (s.frameTaken kind seq judge).Rests := by
  have hwoken := rests_frameComplete h
  have hpart : s.frameComplete.eng.part ≠ .parked := by
    rw [State.frameComplete_eng, Engine.wakeUp_part]
    split
    · nofun
    · assumption
  unfold State.frameTaken
  dsimp only
  split
  · exact rests_errorReply hwoken _ _ _
  · split
    · exact hwoken
    · exact hj s.frameComplete.takeSlot hwoken hpart

theorem rests_frameArrives {f : State → State} (kind seq : Byte) (body : List Byte) (hf : ∀ s, s.Rests → (f s).Rests)
    {s : State} (h : s.Rests) : (s.frameArrives kind seq body f).Rests :=
  frameArrives_keeps (P := State.Rests) (fun _ _ h => h) (fun _ h => rests_errorReply h _ _ _)
    (fun _ h => rests_frameComplete h) hf h

/-- A request that a STARTING part does not answer is turned away before its owner has a part in it (R181). -/
theorem rests_judgeRequest {s : State} (h : s.Rests) (hpart : s.eng.part ≠ .parked) (kind : Byte) (fits : Bool)
    {owner : State → Answer} (ho : (answeredStarting kind = false → s.Hears) → (owner s).state.Rests) :
    (s.judgeRequest kind fits owner).state.Rests := by
  unfold State.judgeRequest
  split
  · exact h
  · rename_i hheard
    have hears (hk : answeredStarting kind = false) : s.Hears := by
      unfold State.Hears
      cases hp : s.eng.part with
      | starting => exact absurd ⟨hp, hk⟩ hheard
      | ready => exact .inl rfl
      | parked => exact absurd hp hpart
      | waking => exact .inr rfl
    split
    · exact ho hears
    · exact h

theorem rests_request {s t : State} {c : Instr} {kind : Byte} {f : Frame} (hq : requestOf c = some (kind, f)) (h : s.Rests)
    (ht : exec c s = .next t) : t.Rests := by
  obtain ⟨owner, he, ho⟩ := rests_owner hq
  exact running_keeps State.Rests (he s ▸ ht) h (rests_frameArrives _ _ _ fun _ h =>
    rests_frameTaken h _ _ fun u h hpart => rests_judgeRequest h hpart _ _ (ho u h))

/-- The frames that reach no owner: of an unknown kind, or with no slot free. -/
theorem rests_unheardRow {s t : State} (h : s.Rests) :
    (∀ kind f, execUnknownRequest kind f s = .next t → t.Rests) ∧ (∀ kind f, execBusy kind f s = .next t → t.Rests) := by
  refine ⟨fun kind f ht => ?unknown, fun kind f ht => ?busy⟩
  case unknown =>
    unfold execUnknownRequest at ht
    split at ht
    · cases ht; exact h
    · exact running_keeps State.Rests ht h (rests_frameArrives _ _ _ fun _ h => rests_frameTaken h _ _ fun _ h _ => h)
  case busy =>
    unfold execBusy at ht
    split at ht
    · cases ht; exact h
    · exact running_keeps State.Rests ht h (rests_frameArrives _ _ _ fun _ h => rests_errorReply (rests_frameComplete h) _ _ _)

theorem rests_receiveOther {s : State} (h : s.Rests) (bytes : List RxByte) : (s.receive otherFrame bytes).Rests :=
  receive_keeps (P := State.Rests) (on := otherFrame) (fun _ _ h => h) (fun _ h => rests_errorReply h _ _ _)
    (fun _ _ _ _ h => rests_frameComplete h) h bytes

/-- A line of the panel may set the cabin target, and reaches no more of the engine. -/
theorem rests_panelChars {s : State} (h : s.Rests) (bs : List Byte) : (s.panelChars bs).Rests := by
  have hbyte (s : State) (h : s.Rests) (b : Byte) : (s.panelChar b).Rests := by
    unfold State.panelChar State.rejectLine State.takeLine
    repeat' split
    all_goals exact h
  have hfold : (bs.foldl State.panelChar s).Rests := List.foldlRecOn (motive := State.Rests) _ _ h fun x hx b _ => hbyte x hx b
  unfold State.panelChars
  split
  · exact h
  all_goals exact hfold

/-- The part as a restart or a stop leaves it rests (O60). -/
theorem rests_fresh (straps : Straps) (x : Circuit) (i : Option Image) (q : List Instr) (r : RunState) :
    ({ State.fresh straps x i q with run := r } : State).Rests := fun _ =>
  ⟨fun c => order_initial x c, .inl rfl, fun o => congrArg OutputRec.level (output_initial x o)⟩

/-- The rows of the supply and of the reset pin leave the part as it was, or as at power-on. -/
theorem rests_supplyRow {s t : State} (h : s.Rests) :
    (∀ straps, execResetPinRelease straps s = .next t → t.Rests)
    ∧ (execResetPinAssert s = .next t → t.Rests) ∧ (execPowerLoss s = .next t → t.Rests) := by
  refine ⟨fun straps ht => ?release, fun ht => ?assert, fun ht => ?loss⟩
  case release =>
    unfold execResetPinRelease at ht
    split at ht <;> cases ht
    · exact rests_fresh _ _ _ _ _
    · exact rests_fresh _ _ _ _ _
    · exact h
  case assert =>
    unfold execResetPinAssert at ht
    split at ht <;> cases ht
    · exact rests_fresh _ _ _ _ _
    · exact h
    · exact h
  case loss =>
    unfold execPowerLoss at ht
    split at ht <;> cases ht
    · exact rests_fresh _ _ _ _ _
    · exact rests_fresh _ _ _ _ _
    · exact h

/-- An image or the defaults are installed in a part that enters READY with them (R191). -/
theorem rests_finishStart (s : State) (r : ImageRead) : (s.finishStart r).Rests := by
  obtain ⟨s', i, status, he⟩ := finishStart_eq s r
  exact rests_of_ready (by rw [he]; rfl)

/-- A soft reset leaves no order, the regulator DISABLED and every output at 0, in whatever part state (R198). -/
theorem rests_softReset (s : State) : s.softReset.Rests := by
  rw [State.Rests, softReset_state]
  exact fun _ => ⟨order_softReset s.eng, .inl rfl, fun o => congrArg OutputRec.level (output_softReset s.eng o)⟩

theorem rests_replyLeft {s : State} (h : s.Rests) : s.replyLeft.Rests := by
  unfold State.replyLeft
  split
  · exact h
  · dsimp only
    split
    · exact rests_softReset s
    · exact h

/-! ### The plant and the clock -/

/-- Outside READY no event of the plant finds anything to do but at a meter and at the compressor (R18, R105). -/
theorem calm_plantEvent {s t : State} {c : Instr} (hc : plantEvent c = true) (h : Calm s.eng) (ht : exec c s = .next t) :
    Calm t.eng := by
  have act {f : Engine → Engine} (ht : s.onEngine f = .next t) (hf : Calm (f s.eng)) : Calm t.eng :=
    running_keeps (fun u => Calm u.eng) ht h fun _ => hf
  have idle {f : Engine → Engine} (ht : s.onEngine f = .next t) (hf : f s.eng = s.eng) : Calm t.eng :=
    act ht (hf.symm ▸ h)
  have outside {f : Engine → Engine} (ht : s.onReady f = .next t) : Calm t.eng :=
    idle (f := whenReady f) ht (whenReady_outside h.part)
  cases c
  case meterHoldExpiry m => exact act ht (calm_holdExpires h _ _ _)
  case reservePendingStart c =>
    exact idle (f := fun e => e.servePending s.tab s.scanGrants c) ht (servePending_outside _ _ _ h.part)
  case segmentTimeLimit c =>
    exact idle (f := fun e => e.timeLimitReached s.tab s.scanGrants c) ht (by simp only [Engine.timeLimitReached, h.orders c])
  case leadEnd c =>
    exact idle (f := fun e => e.leadEnds s.tab c) ht (by simp only [Engine.leadEnds, h.orders c])
  case waitLimitReached c =>
    exact idle (f := fun e => e.waitLimitReached s.tab s.scanGrants c) ht (by simp only [Engine.waitLimitReached, h.orders c])
  case runDownEnd c =>
    exact idle (f := fun e => e.runDownReached s.tab s.scanGrants c) ht (by simp only [Engine.runDownReached, h.orders c])
  case equalizeEnd => exact act ht (calm_equalizeIfOver _ _ h)
  case openLoad | stall | outputTestEnd | handOverEnd => exact outside ht
  case valveAtPosition | valveTravelTimeout | valveFeedbackLost | valveDrift => exact outside ht
  case valveTestFirstLeg | valveTestPass => exact outside ht
  all_goals cases hc

theorem keepsRest_plantEvent {s t : State} {c : Instr} (hc : plantEvent c = true) (ht : exec c s = .next t) :
    KeepsRest s.eng t.eng :=
  have := flow_drives
  keepsRest_of_flow (via_plantEvent hc ht).it fun h => calm_plantEvent hc h ht

theorem keepsRest_parkedClock (e : Engine) (t : Tables) (n : Nat) : KeepsRest e (e.parkedClock t n) :=
  keepsRest_of_flow (flow_parkedClock e t n) fun h => calm_parkedClock h t n

theorem keepsRest_putWake (e : Engine) (w : WakePhase) : KeepsRest e { e with wake := w } := .same rfl rfl rfl rfl

theorem rests_parkTick {s : State} (h : s.Rests) : s.parkTick.Rests := by
  unfold State.parkTick
  split <;> exact h

theorem keepsRest_superviseZones (e : Engine) (t : Tables) (r : Bank Reading 6) : KeepsRest e (e.superviseZones t r) :=
  keepsRest_of_flow (flow_superviseZones e t r) fun h => calm_superviseZones h t r

theorem keepsRest_fullScanEnd (e : Engine) (t : Tables) (x : ScanInput) : KeepsRest e (e.fullScanEnd t x) :=
  keepsRest_of_flow (flow_fullScanEnd e t x) fun h => calm_fullScanEnd h t x

/-- A scan's end in PARKED or WAKING starts and drives nothing; one in READY may take the part to PARKED (R6, R196, R197). -/
theorem rests_endScan {s : State} (h : s.Rests) (k : ScanKind) (f : Feedback) (ord : ScanOrder) : (s.endScan k f ord).Rests := by
  by_cases hk : k = .parked
  · have hwork := keepsRest_superviseZones s.eng s.tab s.sbe.formReadings
    rw [hk, endScan_parked]
    generalize s.eng.superviseZones s.tab s.sbe.formReadings = e at hwork ⊢
    exact rests_of_keeps h hwork
  · have hwork := keepsRest_fullScanEnd s.eng s.tab (s.scanInput f ord)
    have hover : (s.afterFullScan k f ord).Rests := by
      unfold State.afterFullScan
      generalize s.eng.fullScanEnd s.tab (s.scanInput f ord) = e at hwork ⊢
      exact rests_of_keeps h (hwork.trans (keepsRest_putWake _ _))
    rw [endScan_full s hk]
    split
    · exact rests_parkIfDue (rests_parkTick hover)
    · exact rests_parkTick hover

/-- The rows of a scan (R4 to R12). -/
theorem rests_scanRow {s t : State} (h : s.Rests) :
    (execScanStart s = .next t → t.Rests) ∧ (execParkedScanStart s = .next t → t.Rests)
    ∧ (execWakingScanStart s = .next t → t.Rests) ∧ (∀ i r, execSensorRead i r s = .next t → t.Rests)
    ∧ (∀ i, execInputLost i s = .next t → t.Rests) ∧ (∀ f ord, execScanEnd f ord s = .next t → t.Rests) := by
  refine ⟨?start, ?parked, ?waking, fun i r => ?read, fun i => ?lost, fun f ord => ?ends⟩ <;>
    refine fun ht => running_keeps State.Rests ht h fun h => ?_
  case start => split <;> exact h
  case parked =>
    split
    · exact rests_of_keeps h (keepsRest_parkedClock ..)
    · exact h
  case waking =>
    split
    · exact rests_of_keeps h (keepsRest_putWake _ _)
    · exact h
  case read =>
    split
    · exact h
    · split <;> exact h
  case lost =>
    split
    · exact h
    · split <;> exact h
  case ends =>
    split
    · exact rests_endScan h _ f ord
    all_goals exact h

/-- The engine that the end of output enable serves the pending zones on: READY, every count at 0 (R131, R197). -/
def Engine.enabled (e : Engine) : Engine := { e with part := .ready, ost := e.ost.countsCleared }

/-- The pending starts that follow touch no output and leave the part READY (R143). -/
theorem grants_enable (e : Engine) (t : Tables) : Grants e.enabled (e.enable t) :=
  have := grants_base
  (Via.foldl (R := Grants) _ (fun e c => via_servePending (via_grantScan t) e t c) _ _).it

/-! ### Every step -/

theorem rests_whileSaving {s : State} (h : s.Rests) {f : State → State} (hf : (f s).Rests) : (s.whileSaving f).Rests := by
  unfold State.whileSaving
  split <;> assumption

theorem rests_betweenScans {s : State} (h : s.Rests) {f : State → State} (hf : (f s).Rests) : (s.betweenScans f).Rests := by
  unfold State.betweenScans
  split <;> assumption

/-- Every command keeps the rest outside READY. -/
theorem rests_exec {s t : State} {c : Instr} (h : s.Rests) (ht : exec c s = .next t) : t.Rests := by
  rcases hq : requestOf c with _ | ⟨kind, f⟩
  case some => exact rests_request hq h ht
  by_cases hp : plantEvent c = true
  · exact rests_of_keeps h (keepsRest_plantEvent hp ht)
  obtain ⟨hunknown, hbusy⟩ := rests_unheardRow (t := t) h
  obtain ⟨hstart, hparked, hwaking, hread, hlost, hend⟩ := rests_scanRow (t := t) h
  obtain ⟨hrelease, hassert, hloss⟩ := rests_supplyRow (t := t) h
  have running {f : State → State} (ht : Host.Outcome.next (φ := Fault) (ρ := Refusal) (s.whileRunning f) = .next t)
      (hf : (f s).Rests) : t.Rests := running_keeps State.Rests ht h fun _ => hf
  cases c
  case unknownRequest kind f => exact hunknown kind f ht
  case busy kind f => exact hbusy kind f ht
  case frameError bytes after => exact running ht (rests_receiveOther (rests_receiveOther h _) _)
  case frameTimeout bytes =>
    have hhunting : ((s.receive otherFrame bytes.before).putRx .hunting).Rests := rests_receiveOther h _
    exact running ht (rests_receiveOther hhunting _)
  case replySent => exact running ht (rests_replyLeft h)
  case powerOnReset straps => cases ht; exact rests_fresh _ _ _ _ _
  case resetPinRelease straps => exact hrelease straps ht
  case resetPinAssert => exact hassert ht
  case powerLoss => exact hloss ht
  case imageLoadComplete r =>
    refine running ht ?_
    split
    · exact rests_finishStart s r
    all_goals exact h
  case scanStart => exact hstart ht
  case parkedScanStart => exact hparked ht
  case wakingScanStart => exact hwaking ht
  case sensorRead i r => exact hread i r ht
  case inputLost i => exact hlost i ht
  case scanEnd f ord => exact hend f ord ht
  case parkTimerExpiry => exact running ht (rests_parkIfDue h)
  case outputEnableEnd =>
    refine running ht ?_
    split
    · exact rests_of_ready (grants_enable _ _).part
    · exact h
  case savePiece => exact running ht (rests_whileSaving h (rests_betweenScans h h))
  case saveComplete => exact running ht (rests_whileSaving h (rests_betweenScans h h))
  case saveFailed => exact running ht (rests_whileSaving h h)
  case panelTargetLine rest => exact running ht (rests_panelChars h _)
  case panelQueryLine => exact running ht (rests_panelChars h _)
  case panelBadLine line => exact running ht (rests_panelChars h _)
  case panelLineTimeout before after =>
    have hempty : (s.panelChars before).emptyLine.Rests := rests_panelChars h before
    exact running ht (rests_panelChars hempty after)
  case panelReplySent => exact running ht h
  -- What is left is an event of the plant or a request.
  all_goals first | exact absurd rfl hp | exact absurd hq (Option.some_ne_none _)

/-- Of 100 milliseconds without a command only an equalize may end (R105). -/
theorem rests_parkedTick {s : State} (h : s.Rests) : s.parkedTick.Rests := by
  unfold State.parkedTick
  split
  · exact rests_of_keeps h (keepsRest_parkedClock ..)
  all_goals exact h

/-- Settles O56: a step is a command or an idle step, and both keep the rest outside READY. -/
theorem restKept : Obligations.RestKept := by
  intro s t h ht
  unfold step at ht
  split at ht
  · exact running_keeps State.Rests ht h rests_parkedTick
  · rename_i c rest _
    exact rests_exec (s := s.withPending rest) h ht

end Sys2Proof.Machine
end

section
/-! O33, O36: SET TUNING and SET MODE; RELEASE LOCKOUT, the ways into PARKED, and the end of output enable. -/

namespace Sys2Proof.Machine

open Sys2Proof

/-! ### SET TUNING and SET MODE (O33) -/

/-- The ranges of R194 as a proposition. -/
theorem tuningOk_iff (t : Tuning) : tuningOk t = true ↔
    (1 ≤ t.prefetchMargin ∧ t.prefetchMargin ≤ 2000) ∧ t.meterHold ≤ 30 ∧ (5 ≤ t.valveTimeout ∧ t.valveTimeout ≤ 60)
    ∧ (30 ≤ t.equalizeTime ∧ t.equalizeTime ≤ 180) ∧ (t.parkDelay = 0 ∨ 10 ≤ t.parkDelay ∧ t.parkDelay ≤ 3600)
    ∧ t.leadThreshold ≤ 1500 ∧ (2 ≤ t.leadTime ∧ t.leadTime ≤ 30) ∧ (30 ≤ t.coolant ∧ t.coolant ≤ 42)
    ∧ (1 ≤ t.handOverTime ∧ t.handOverTime ≤ 10) := by
  simp only [tuningOk, Bool.and_eq_true, decide_eq_true_eq, and_assoc]

/-- Outside OPERATING the mode is COMMISSIONING (R38). -/
theorem mode_ne_operating {m : Mode} : m ≠ .operating ↔ m = .commissioning := by
  cases m <;> decide

section
variable {s : State} {t : Tuning}

theorem answerTuning_taken {auto : Bool} (ht : tuningOk t = true)
    (hflag : s.cfc.mode = .commissioning ∨ auto = s.cfc.autoRelease) :
    answerTuning t auto s = ((s.putTables { s.tab with tuning := t }).putControl { s.cfc with autoRelease := auto }).gives .ok
      (.tuning t auto) := by
  have hallowed : ¬ (s.cfc.mode = .operating ∧ auto ≠ s.cfc.autoRelease) := by
    rintro ⟨hmode, hne⟩
    rcases hflag with hc | he
    · exact mode_ne_operating.2 hc hmode
    · exact hne he
  rw [answerTuning, if_neg (by rw [ht]; decide), if_neg hallowed]

theorem answerTuning_refused {auto : Bool} (ht : tuningOk t = true)
    (hflag : ¬ (s.cfc.mode = .commissioning ∨ auto = s.cfc.autoRelease)) : answerTuning t auto s = s.says .notPermitted := by
  obtain ⟨hmode, hne⟩ := not_or.1 hflag
  rw [answerTuning, if_neg (by rw [ht]; decide), if_pos ⟨not_not.1 (mt mode_ne_operating.1 hmode), hne⟩]

theorem answerTuning_bad (ht : ¬ tuningOk t = true) (auto : Bool) (s : State) : answerTuning t auto s = s.says .badArgument :=
  if_pos (Bool.eq_false_iff.2 ht)

end

/-- COMMISSIONING waits for IDLE channels and a DISABLED regulator (R195). -/
theorem answerMode_commissioning (s : State) : answerMode (some .commissioning) s
    = if (∀ c, s.eng.order c = none) ∧ s.eng.crg.state = .disabled then
        (s.putControl { s.cfc with mode := .commissioning }).says .ok
      else s.says .inUse := by
  have hbusy : (s.eng.allIdle = false ∨ s.eng.crg.state ≠ .disabled)
      ↔ ¬ ((∀ c, s.eng.order c = none) ∧ s.eng.crg.state = .disabled) := by
    rw [← Engine.allIdle_iff, not_and_or, Bool.not_eq_true]
  simp only [answerMode, hbusy, ite_not]

/-- Settles O33: the ranges judge a tuning set first, then the flag; the mode is judged by what runs. -/
theorem tuningAndMode : Obligations.TuningAndMode := by
  intro s f h
  refine ⟨?tuning, request_says h rfl rfl, fun hidle hoff => request_says h rfl ?commissioning,
    fun hbusy => request_says h rfl ?inUse, request_says h rfl rfl⟩
  case tuning =>
    intro t auto inRange flagOk
    have hrange : tuningOk t = true ↔ inRange := tuningOk_iff t
    exact ⟨fun hr hf => request_gives h rfl (answerTuning_taken (hrange.2 hr) hf),
      fun hr hf => request_says h rfl (answerTuning_refused (hrange.2 hr) hf),
      fun hr => request_says h rfl (answerTuning_bad (mt hrange.1 hr) auto _)⟩
  case commissioning =>
    rw [answerMode_commissioning, if_pos]
    simpa using ⟨hidle, hoff⟩
  case inUse =>
    rw [answerMode_commissioning, if_neg]
    rintro ⟨hidle, hoff⟩
    simp only [State.asTaken_eng, Engine.order_wakeUp, Engine.wakeUp_crg] at hidle hoff
    rcases hbusy with ⟨c, hc⟩ | hon
    · exact hc (hidle c)
    · exact hon hoff

/-! ### The ways into PARKED (O36) -/

/-- The park conditions do not look at what the taking of a request changes (R196). -/
theorem quiet_asTaken (s : State) : s.asTaken.quiet ↔ s.quiet := by
  simp [State.quiet]

/-- What a part that parks while it takes a request makes of the state before: a READY part is not woken, and the park timer is
at 0 either way. -/
theorem parksTo_asTaken {s : State} (h : s.eng.part = .ready) : s.parksTo s.asTaken.enterParked := by
  obtain ⟨hpart, houtputs, hvalves, hmap, hover, hmeters, hmar, hreports, hcrg, hzones, hchannels, hcfc, htab⟩ :=
    parksTo_enterParked s.asTaken
  rw [State.asTaken_eng, Engine.wakeUp_ready _ h] at houtputs hvalves hmap hmar hreports hcrg hzones hchannels
  exact ⟨hpart, houtputs, hvalves, hmap, hover, hmeters, hmar, hreports, hcrg, hzones, hchannels, hcfc, htab⟩

theorem answerPark_parks {s : State} (hpart : s.eng.part = .ready) (hquiet : s.quiet) :
    answerPark s = s.enterParked.says .ok := if_pos ⟨hpart, (parkable_iff_quiet s).2 hquiet⟩

theorem answerPark_refused {s : State} (h : s.eng.part ≠ .ready ∨ ¬ s.quiet) : answerPark s = s.says .notPermitted :=
  if_neg (not_and_or.2 (h.imp_right (mt (parkable_iff_quiet s).1)))

/-- A request is taken by a READY part just where it found the part READY. -/
theorem asTaken_ready (s : State) : s.asTaken.eng.part = .ready ↔ s.eng.part = .ready := by
  rw [State.asTaken_eng, Engine.wakeUp_part]
  cases s.eng.part <;> simp

/-- The park timer's own row parks a part whose timer has reached the delay, the conditions holding (R196). -/
theorem parkIfDue_due {s : State} (hpart : s.eng.part = .ready) (hdelay : s.tab.tuning.parkDelay ≠ 0)
    (htimer : s.tab.tuning.parkDelay * 10 ≤ s.cfc.parkTimer) (hquiet : s.quiet) : s.parkIfDue = s.enterParked := by
  have hparkable := (parkable_iff_quiet s).2 hquiet
  simp [State.parkIfDue, State.parkDue, hpart, hdelay, htimer, hparkable]

/-! ### The end of output enable (O36) -/

theorem output_enabled (e : Engine) (o : OutputNo) :
    e.enabled.output o = { e.output o with openCount := 0, stallCount := 0 } := Bank.nth_each _ _ _

theorem valve_enabled (e : Engine) (v : ValveNo) :
    e.enabled.valve v = { e.valve v with missCount := 0, driftCount := 0 } := Bank.nth_each _ _ _

/-- Where no zone is pending nothing follows. -/
theorem enable_none {e : Engine} (h : ∀ z, (e.zone z).pending = false) (t : Tables) : e.enable t = e.enabled :=
  foldl_keeps _ _ _ fun c _ => servePending_none t _ e.enabled c h

theorem exec_outputEnableEnd {s : State} (hrun : s.run = .running) (hpart : s.eng.part = .waking)
    (hwake : s.eng.wake = .outputEnable) : exec .outputEnableEnd s
      = .next { s with eng := s.eng.enable s.tab, cfc := { s.cfc with parkTimer := 0 } } := by
  show execOutputEnableEnd s = _
  rw [execOutputEnableEnd, whileRunning_running hrun, if_pos ⟨hpart, hwake⟩]

/-- Settles O36: PARK and the timer by the park conditions, the end of output enable by what serves the pending zones. -/
theorem lockoutParkEnable : Obligations.LockoutParkEnable := by
  refine ⟨fun s f h => ⟨request_says h rfl rfl, fun hpart hquiet => ?park, fun hrefused => request_says h rfl ?refused⟩,
    fun s hrun hpart hdelay htimer hquiet => ?timer, fun s hrun hpart hwake => ?enable⟩
  case park =>
    refine ⟨s.asTaken.enterParked, request_says h rfl ?_, parksTo_asTaken hpart⟩
    exact answerPark_parks ((asTaken_ready s).2 hpart) ((quiet_asTaken s).2 hquiet)
  case refused =>
    exact answerPark_refused (hrefused.imp (mt (asTaken_ready s).1) (mt (quiet_asTaken s).1))
  case timer =>
    refine ⟨s.enterParked, ?_, parksTo_enterParked s, rfl⟩
    show execParkTimerExpiry s = _
    rw [execParkTimerExpiry, whileRunning_running hrun, parkIfDue_due hpart hdelay htimer hquiet]
  case enable =>
    have hgrants := grants_enable s.eng s.tab
    refine ⟨_, exec_outputEnableEnd hrun hpart hwake, hgrants.part, rfl, fun o => ?_, fun hnone => ?_⟩
    · rw [← output_enabled, Engine.output, hgrants.outputs]
      rfl
    · dsimp only
      rw [enable_none hnone]
      exact ⟨valve_enabled s.eng, rfl, rfl⟩

end Sys2Proof.Machine
end

section
/-! O1: a step on a queue that is not empty; `step_empty` is its other case. -/

namespace Sys2Proof.Machine

open Sys2Proof

/-- Settles O1: the front of the queue chooses the branch of `step` that dispatches it, on the queue's rest. -/
theorem stepRunsFront : Obligations.StepRunsFront := by
  intro s c rest hfront
  rw [step, hfront]

end Sys2Proof.Machine
end
